-- ==== Sys2Proof/Word.lean ====
section
/-! DEFINITION. The two word types of the machine: bytes and 16-bit addresses (spec 00_scope.md R5, R8, R10). -/

namespace Sys2Proof

/-- A data byte: R5 gives a data width of 8 bits. -/
abbrev Byte := BitVec 8

/-- A 16-bit address, also the width of the program counter (R5). -/
abbrev Addr := BitVec 16

end Sys2Proof
end

