-- ==== Sys2Proof/Config.lean ====
section
/-! DEFINITION. The configuration of the machine (spec 00_scope.md R6) and the free values the spec leaves open. -/

namespace Sys2Proof

/-- The four soft switches (10_state.md R30). -/
inductive Switch where
  | graphics
  | split
  | page2
  | hires
deriving DecidableEq, Repr

/-- An inclusive range of 16-bit addresses (R6). With `lo` above `hi` it holds no address (log 14). -/
structure Window where
  lo : Addr
  hi : Addr
deriving DecidableEq, Repr

/-- One value of a decimal function: its operands, its carry in, its result and its carry out. -/
structure BcdEntry where
  a : Byte
  m : Byte
  c : Bool
  result : Byte
  carry : Bool
deriving DecidableEq, Repr

/-- A `BCD_ADC` or a `BCD_SBC` (R6) as plain data: its values on operands that are not both valid BCD, where they are not those of
the default of 41_arith_logic.md R122 or R123. On valid operands the law of R124 leaves no choice. Every function that follows the
law is such a list (log 5). -/
abbrev BcdRule := List BcdEntry

/-- The open parameters of R6, but for `BREAKPOINT`, which the host sets and which State holds by itself (10_state.md R34).
The configuration is fixed for the life of the machine (10_state.md R37). -/
structure Config where
  /-- `ROM_BOUNDARY`, 0 to 65536; 65536 means no ROM. -/
  romBoundary : Fin 65537
  /-- `SOFT_SWITCHES`, as a list of its entries. -/
  softSwitches : List (Addr × Switch)
  /-- `KBD_STROBE_LO`. -/
  strobeLo : Addr
  /-- `KBD_STROBE_HI`. -/
  strobeHi : Addr
  /-- `VIDEO_WIN_1`. -/
  video1 : Window
  /-- `VIDEO_WIN_2`. -/
  video2 : Window
  /-- `IMPLEMENTED_OPCODES`, as a list of its members. -/
  implemented : List Byte
  /-- `JMP_IND_PAGE_WRAP`. -/
  jmpIndPageWrap : Bool
  /-- `BCD_ADC`. -/
  bcdAdc : BcdRule
  /-- `BCD_SBC`. -/
  bcdSbc : BcdRule
deriving DecidableEq, Repr

/-- FREE VALUE. The outcome of the `n`-th two-valued `draw` of R9 (log 3): nothing is known about it. -/
opaque Config.freeBit : Nat → Bool

end Sys2Proof
end

