-- ==== Sys2Proof/Machine/Bits.lean ====
section
/-! DEFINITION. Byte order and extension helpers: the notation of 00_scope.md R8 and R9, the little-endian order of 20_memory.md R52. -/

namespace Sys2Proof.Machine

/-- `lo(w) = w[7:0]` (R8). -/
def lo (w : Addr) : Byte := w.extractLsb' 0 8

/-- `hi(w) = w[15:8]` (R8). -/
def hi (w : Addr) : Byte := w.extractLsb' 8 8

/-- `h:l`, the 16-bit value `(h << 8) | l` (R8). -/
def pair (h l : Byte) : Addr := h ++ l

/-- `zext_16(b)` (R9). -/
def zext (b : Byte) : Addr := b.setWidth 16

/-- `sext_8(b)` carried to 16 bits, for adding to an address modulo 65536 (R9, R82). -/
def sext (b : Byte) : Addr := b.signExtend 16

/-- A flag as the number the pseudocode reads: 1 for true, 0 for false (R9). -/
def bit (c : Bool) : Nat := c.toNat

end Sys2Proof.Machine
end

