-- ==== Sys2Proof/Syntax.lean ====
section
/-! DEFINITION. The instructions as syntax: one constructor of `Instr` for each of the 151 rows of spec/opcode_table.json
(30_encoding.md R85), with the operand formats of R81. -/

namespace Sys2Proof

/-- The operand formats of R81, in its order. -/
inductive Mode where
  | imp
  | acc
  | imm
  | zp
  | zpx
  | zpy
  | abs
  | absx
  | absy
  | indx
  | indy
  | rel
  | ind
  | brk
deriving DecidableEq, Repr

/-- An operand in memory: the eight modes whose effective address goes through the dispatcher (20_memory.md R57). A byte
operand is `o1`, an address operand is `o2:o1` (R82). -/
inductive MemOperand where
  | zp (o : Byte)
  | zpx (o : Byte)
  | zpy (o : Byte)
  | abs (w : Addr)
  | absx (w : Addr)
  | absy (w : Addr)
  | indx (o : Byte)
  | indy (o : Byte)
deriving DecidableEq, Repr

/-- Where a reading instruction takes its operand value `M` from (R92). -/
inductive Source where
  | imm (v : Byte)
  | mem (m : MemOperand)
deriving DecidableEq, Repr

/-- What a shift or rotate works on (42_shift.md): the accumulator, or a byte of memory. -/
inductive Target where
  | acc
  | mem (m : MemOperand)
deriving DecidableEq, Repr

/-- The operand of an instruction, in any of the formats of R81. `target` is the `abs` format of JMP and JSR, whose operand
is the address to go to; `brk` holds the byte after a BRK, which is ignored. -/
inductive Operand where
  | implied
  | accumulator
  | immediate (v : Byte)
  | memory (m : MemOperand)
  | relative (d : Byte)
  | target (w : Addr)
  | indirect (p : Addr)
  | brk (pad : Byte)
deriving DecidableEq, Repr

/-- The format of a memory operand (R81). -/
def MemOperand.mode : MemOperand → Mode
  | .zp _ => .zp
  | .zpx _ => .zpx
  | .zpy _ => .zpy
  | .abs _ => .abs
  | .absx _ => .absx
  | .absy _ => .absy
  | .indx _ => .indx
  | .indy _ => .indy

/-- The format of an operand (R81). -/
def Operand.mode : Operand → Mode
  | .implied => .imp
  | .accumulator => .acc
  | .immediate _ => .imm
  | .memory m => m.mode
  | .relative _ => .rel
  | .target _ => .abs
  | .indirect _ => .ind
  | .brk _ => .brk

/-- A reading instruction's source as an operand. -/
def Source.operand : Source → Operand
  | .imm v => .immediate v
  | .mem m => .memory m

/-- A shift's target as an operand. -/
def Target.operand : Target → Operand
  | .acc => .accumulator
  | .mem m => .memory m

/-- The 56 mnemonics of R85. -/
inductive Mnemonic where
  | LDA | LDX | LDY | STA | STX | STY | ADC | SBC
  | AND | ORA | EOR | ASL | LSR | ROL | ROR | CMP
  | CPX | CPY | INC | DEC | INX | INY | DEX | DEY
  | BIT | TAX | TAY | TXA | TYA | TSX | TXS | PHA
  | PLA | PHP | PLP | JMP | JSR | RTS | BRK | RTI
  | BCC | BCS | BEQ | BMI | BNE | BPL | BVC | BVS
  | SEC | CLC | SED | CLD | SEI | CLI | CLV | NOP
deriving DecidableEq, Repr

/-- One constructor per row of spec/opcode_table.json. A byte argument is the operand byte `o1` (`v` an immediate value, `o` a
page-0 address or pointer, `d` a displacement, `pad` the ignored byte of BRK); an address argument `w` is `o2:o1`. -/
inductive Instr where
  | ldaImm (v : Byte) | ldaZp (o : Byte) | ldaZpx (o : Byte) | ldaAbs (w : Addr) | ldaAbsx (w : Addr)
  | ldaAbsy (w : Addr) | ldaIndx (o : Byte) | ldaIndy (o : Byte)
  | ldxImm (v : Byte) | ldxZp (o : Byte) | ldxZpy (o : Byte) | ldxAbs (w : Addr) | ldxAbsy (w : Addr)
  | ldyImm (v : Byte) | ldyZp (o : Byte) | ldyZpx (o : Byte) | ldyAbs (w : Addr) | ldyAbsx (w : Addr)
  | staZp (o : Byte) | staZpx (o : Byte) | staAbs (w : Addr) | staAbsx (w : Addr) | staAbsy (w : Addr)
  | staIndx (o : Byte) | staIndy (o : Byte)
  | stxZp (o : Byte) | stxZpy (o : Byte) | stxAbs (w : Addr)
  | styZp (o : Byte) | styZpx (o : Byte) | styAbs (w : Addr)
  | adcImm (v : Byte) | adcZp (o : Byte) | adcZpx (o : Byte) | adcAbs (w : Addr) | adcAbsx (w : Addr)
  | adcAbsy (w : Addr) | adcIndx (o : Byte) | adcIndy (o : Byte)
  | sbcImm (v : Byte) | sbcZp (o : Byte) | sbcZpx (o : Byte) | sbcAbs (w : Addr) | sbcAbsx (w : Addr)
  | sbcAbsy (w : Addr) | sbcIndx (o : Byte) | sbcIndy (o : Byte)
  | andImm (v : Byte) | andZp (o : Byte) | andZpx (o : Byte) | andAbs (w : Addr) | andAbsx (w : Addr)
  | andAbsy (w : Addr) | andIndx (o : Byte) | andIndy (o : Byte)
  | oraImm (v : Byte) | oraZp (o : Byte) | oraZpx (o : Byte) | oraAbs (w : Addr) | oraAbsx (w : Addr)
  | oraAbsy (w : Addr) | oraIndx (o : Byte) | oraIndy (o : Byte)
  | eorImm (v : Byte) | eorZp (o : Byte) | eorZpx (o : Byte) | eorAbs (w : Addr) | eorAbsx (w : Addr)
  | eorAbsy (w : Addr) | eorIndx (o : Byte) | eorIndy (o : Byte)
  | aslAcc | aslZp (o : Byte) | aslZpx (o : Byte) | aslAbs (w : Addr) | aslAbsx (w : Addr)
  | lsrAcc | lsrZp (o : Byte) | lsrZpx (o : Byte) | lsrAbs (w : Addr) | lsrAbsx (w : Addr)
  | rolAcc | rolZp (o : Byte) | rolZpx (o : Byte) | rolAbs (w : Addr) | rolAbsx (w : Addr)
  | rorAcc | rorZp (o : Byte) | rorZpx (o : Byte) | rorAbs (w : Addr) | rorAbsx (w : Addr)
  | cmpImm (v : Byte) | cmpZp (o : Byte) | cmpZpx (o : Byte) | cmpAbs (w : Addr) | cmpAbsx (w : Addr)
  | cmpAbsy (w : Addr) | cmpIndx (o : Byte) | cmpIndy (o : Byte)
  | cpxImm (v : Byte) | cpxZp (o : Byte) | cpxAbs (w : Addr)
  | cpyImm (v : Byte) | cpyZp (o : Byte) | cpyAbs (w : Addr)
  | incZp (o : Byte) | incZpx (o : Byte) | incAbs (w : Addr) | incAbsx (w : Addr)
  | decZp (o : Byte) | decZpx (o : Byte) | decAbs (w : Addr) | decAbsx (w : Addr)
  | inx
  | iny
  | dex
  | dey
  | bitZp (o : Byte) | bitAbs (w : Addr)
  | tax
  | tay
  | txa
  | tya
  | tsx
  | txs
  | pha
  | pla
  | php
  | plp
  | jmpAbs (w : Addr) | jmpInd (w : Addr)
  | jsr (w : Addr)
  | rts
  | brk (pad : Byte)
  | rti
  | bcc (d : Byte)
  | bcs (d : Byte)
  | beq (d : Byte)
  | bmi (d : Byte)
  | bne (d : Byte)
  | bpl (d : Byte)
  | bvc (d : Byte)
  | bvs (d : Byte)
  | sec
  | clc
  | sed
  | cld
  | sei
  | cli
  | clv
  | nop
deriving DecidableEq, Repr

/-- The mnemonic of an instruction (R85). -/
def Instr.mnemonic : Instr → Mnemonic
  | .ldaImm _ | .ldaZp _ | .ldaZpx _ | .ldaAbs _ | .ldaAbsx _ | .ldaAbsy _ | .ldaIndx _ | .ldaIndy _ => .LDA
  | .ldxImm _ | .ldxZp _ | .ldxZpy _ | .ldxAbs _ | .ldxAbsy _ => .LDX
  | .ldyImm _ | .ldyZp _ | .ldyZpx _ | .ldyAbs _ | .ldyAbsx _ => .LDY
  | .staZp _ | .staZpx _ | .staAbs _ | .staAbsx _ | .staAbsy _ | .staIndx _ | .staIndy _ => .STA
  | .stxZp _ | .stxZpy _ | .stxAbs _ => .STX
  | .styZp _ | .styZpx _ | .styAbs _ => .STY
  | .adcImm _ | .adcZp _ | .adcZpx _ | .adcAbs _ | .adcAbsx _ | .adcAbsy _ | .adcIndx _ | .adcIndy _ => .ADC
  | .sbcImm _ | .sbcZp _ | .sbcZpx _ | .sbcAbs _ | .sbcAbsx _ | .sbcAbsy _ | .sbcIndx _ | .sbcIndy _ => .SBC
  | .andImm _ | .andZp _ | .andZpx _ | .andAbs _ | .andAbsx _ | .andAbsy _ | .andIndx _ | .andIndy _ => .AND
  | .oraImm _ | .oraZp _ | .oraZpx _ | .oraAbs _ | .oraAbsx _ | .oraAbsy _ | .oraIndx _ | .oraIndy _ => .ORA
  | .eorImm _ | .eorZp _ | .eorZpx _ | .eorAbs _ | .eorAbsx _ | .eorAbsy _ | .eorIndx _ | .eorIndy _ => .EOR
  | .aslAcc | .aslZp _ | .aslZpx _ | .aslAbs _ | .aslAbsx _ => .ASL
  | .lsrAcc | .lsrZp _ | .lsrZpx _ | .lsrAbs _ | .lsrAbsx _ => .LSR
  | .rolAcc | .rolZp _ | .rolZpx _ | .rolAbs _ | .rolAbsx _ => .ROL
  | .rorAcc | .rorZp _ | .rorZpx _ | .rorAbs _ | .rorAbsx _ => .ROR
  | .cmpImm _ | .cmpZp _ | .cmpZpx _ | .cmpAbs _ | .cmpAbsx _ | .cmpAbsy _ | .cmpIndx _ | .cmpIndy _ => .CMP
  | .cpxImm _ | .cpxZp _ | .cpxAbs _ => .CPX
  | .cpyImm _ | .cpyZp _ | .cpyAbs _ => .CPY
  | .incZp _ | .incZpx _ | .incAbs _ | .incAbsx _ => .INC
  | .decZp _ | .decZpx _ | .decAbs _ | .decAbsx _ => .DEC
  | .inx => .INX
  | .iny => .INY
  | .dex => .DEX
  | .dey => .DEY
  | .bitZp _ | .bitAbs _ => .BIT
  | .tax => .TAX
  | .tay => .TAY
  | .txa => .TXA
  | .tya => .TYA
  | .tsx => .TSX
  | .txs => .TXS
  | .pha => .PHA
  | .pla => .PLA
  | .php => .PHP
  | .plp => .PLP
  | .jmpAbs _ | .jmpInd _ => .JMP
  | .jsr _ => .JSR
  | .rts => .RTS
  | .brk _ => .BRK
  | .rti => .RTI
  | .bcc _ => .BCC
  | .bcs _ => .BCS
  | .beq _ => .BEQ
  | .bmi _ => .BMI
  | .bne _ => .BNE
  | .bpl _ => .BPL
  | .bvc _ => .BVC
  | .bvs _ => .BVS
  | .sec => .SEC
  | .clc => .CLC
  | .sed => .SED
  | .cld => .CLD
  | .sei => .SEI
  | .cli => .CLI
  | .clv => .CLV
  | .nop => .NOP

/-- The operand of an instruction, in its format (R81, R85). -/
def Instr.operand : Instr → Operand
  | .ldaImm v => .immediate v
  | .ldaZp o => .memory (.zp o)
  | .ldaZpx o => .memory (.zpx o)
  | .ldaAbs w => .memory (.abs w)
  | .ldaAbsx w => .memory (.absx w)
  | .ldaAbsy w => .memory (.absy w)
  | .ldaIndx o => .memory (.indx o)
  | .ldaIndy o => .memory (.indy o)
  | .ldxImm v => .immediate v
  | .ldxZp o => .memory (.zp o)
  | .ldxZpy o => .memory (.zpy o)
  | .ldxAbs w => .memory (.abs w)
  | .ldxAbsy w => .memory (.absy w)
  | .ldyImm v => .immediate v
  | .ldyZp o => .memory (.zp o)
  | .ldyZpx o => .memory (.zpx o)
  | .ldyAbs w => .memory (.abs w)
  | .ldyAbsx w => .memory (.absx w)
  | .staZp o => .memory (.zp o)
  | .staZpx o => .memory (.zpx o)
  | .staAbs w => .memory (.abs w)
  | .staAbsx w => .memory (.absx w)
  | .staAbsy w => .memory (.absy w)
  | .staIndx o => .memory (.indx o)
  | .staIndy o => .memory (.indy o)
  | .stxZp o => .memory (.zp o)
  | .stxZpy o => .memory (.zpy o)
  | .stxAbs w => .memory (.abs w)
  | .styZp o => .memory (.zp o)
  | .styZpx o => .memory (.zpx o)
  | .styAbs w => .memory (.abs w)
  | .adcImm v => .immediate v
  | .adcZp o => .memory (.zp o)
  | .adcZpx o => .memory (.zpx o)
  | .adcAbs w => .memory (.abs w)
  | .adcAbsx w => .memory (.absx w)
  | .adcAbsy w => .memory (.absy w)
  | .adcIndx o => .memory (.indx o)
  | .adcIndy o => .memory (.indy o)
  | .sbcImm v => .immediate v
  | .sbcZp o => .memory (.zp o)
  | .sbcZpx o => .memory (.zpx o)
  | .sbcAbs w => .memory (.abs w)
  | .sbcAbsx w => .memory (.absx w)
  | .sbcAbsy w => .memory (.absy w)
  | .sbcIndx o => .memory (.indx o)
  | .sbcIndy o => .memory (.indy o)
  | .andImm v => .immediate v
  | .andZp o => .memory (.zp o)
  | .andZpx o => .memory (.zpx o)
  | .andAbs w => .memory (.abs w)
  | .andAbsx w => .memory (.absx w)
  | .andAbsy w => .memory (.absy w)
  | .andIndx o => .memory (.indx o)
  | .andIndy o => .memory (.indy o)
  | .oraImm v => .immediate v
  | .oraZp o => .memory (.zp o)
  | .oraZpx o => .memory (.zpx o)
  | .oraAbs w => .memory (.abs w)
  | .oraAbsx w => .memory (.absx w)
  | .oraAbsy w => .memory (.absy w)
  | .oraIndx o => .memory (.indx o)
  | .oraIndy o => .memory (.indy o)
  | .eorImm v => .immediate v
  | .eorZp o => .memory (.zp o)
  | .eorZpx o => .memory (.zpx o)
  | .eorAbs w => .memory (.abs w)
  | .eorAbsx w => .memory (.absx w)
  | .eorAbsy w => .memory (.absy w)
  | .eorIndx o => .memory (.indx o)
  | .eorIndy o => .memory (.indy o)
  | .aslAcc => .accumulator
  | .aslZp o => .memory (.zp o)
  | .aslZpx o => .memory (.zpx o)
  | .aslAbs w => .memory (.abs w)
  | .aslAbsx w => .memory (.absx w)
  | .lsrAcc => .accumulator
  | .lsrZp o => .memory (.zp o)
  | .lsrZpx o => .memory (.zpx o)
  | .lsrAbs w => .memory (.abs w)
  | .lsrAbsx w => .memory (.absx w)
  | .rolAcc => .accumulator
  | .rolZp o => .memory (.zp o)
  | .rolZpx o => .memory (.zpx o)
  | .rolAbs w => .memory (.abs w)
  | .rolAbsx w => .memory (.absx w)
  | .rorAcc => .accumulator
  | .rorZp o => .memory (.zp o)
  | .rorZpx o => .memory (.zpx o)
  | .rorAbs w => .memory (.abs w)
  | .rorAbsx w => .memory (.absx w)
  | .cmpImm v => .immediate v
  | .cmpZp o => .memory (.zp o)
  | .cmpZpx o => .memory (.zpx o)
  | .cmpAbs w => .memory (.abs w)
  | .cmpAbsx w => .memory (.absx w)
  | .cmpAbsy w => .memory (.absy w)
  | .cmpIndx o => .memory (.indx o)
  | .cmpIndy o => .memory (.indy o)
  | .cpxImm v => .immediate v
  | .cpxZp o => .memory (.zp o)
  | .cpxAbs w => .memory (.abs w)
  | .cpyImm v => .immediate v
  | .cpyZp o => .memory (.zp o)
  | .cpyAbs w => .memory (.abs w)
  | .incZp o => .memory (.zp o)
  | .incZpx o => .memory (.zpx o)
  | .incAbs w => .memory (.abs w)
  | .incAbsx w => .memory (.absx w)
  | .decZp o => .memory (.zp o)
  | .decZpx o => .memory (.zpx o)
  | .decAbs w => .memory (.abs w)
  | .decAbsx w => .memory (.absx w)
  | .inx => .implied
  | .iny => .implied
  | .dex => .implied
  | .dey => .implied
  | .bitZp o => .memory (.zp o)
  | .bitAbs w => .memory (.abs w)
  | .tax => .implied
  | .tay => .implied
  | .txa => .implied
  | .tya => .implied
  | .tsx => .implied
  | .txs => .implied
  | .pha => .implied
  | .pla => .implied
  | .php => .implied
  | .plp => .implied
  | .jmpAbs w => .target w
  | .jmpInd w => .indirect w
  | .jsr w => .target w
  | .rts => .implied
  | .brk pad => .brk pad
  | .rti => .implied
  | .bcc d => .relative d
  | .bcs d => .relative d
  | .beq d => .relative d
  | .bmi d => .relative d
  | .bne d => .relative d
  | .bpl d => .relative d
  | .bvc d => .relative d
  | .bvs d => .relative d
  | .sec => .implied
  | .clc => .implied
  | .sed => .implied
  | .cld => .implied
  | .sei => .implied
  | .cli => .implied
  | .clv => .implied
  | .nop => .implied

end Sys2Proof
end

