-- ==== Sys2Proof/Decode.lean ====
section
/-! DEFINITION. The decoder, total on any bytes, and after it the encoder (30_encoding.md R80-R88). The decoder is written from
the grid of R85, the encoder from R85's list per mnemonic. -/

namespace Sys2Proof

open Sys2Proof.Machine (lo hi pair)

/-- What follows an opcode byte: no operand byte, one, or two making a little-endian address (R80, R82). -/
inductive Shape where
  | none (i : Instr)
  | byte (mk : Byte → Instr)
  | word (mk : Addr → Instr)

/-- Row 0 of the grid of R85. -/
def opRow0 : List (Byte × Shape) :=
  [(0x00, .byte .brk), (0x01, .byte .oraIndx), (0x05, .byte .oraZp), (0x06, .byte .aslZp), (0x08, .none .php),
   (0x09, .byte .oraImm), (0x0A, .none .aslAcc), (0x0D, .word .oraAbs), (0x0E, .word .aslAbs)]

/-- Row 1 of the grid of R85. -/
def opRow1 : List (Byte × Shape) :=
  [(0x10, .byte .bpl), (0x11, .byte .oraIndy), (0x15, .byte .oraZpx), (0x16, .byte .aslZpx), (0x18, .none .clc),
   (0x19, .word .oraAbsy), (0x1D, .word .oraAbsx), (0x1E, .word .aslAbsx)]

/-- Row 2 of the grid of R85. -/
def opRow2 : List (Byte × Shape) :=
  [(0x20, .word .jsr), (0x21, .byte .andIndx), (0x24, .byte .bitZp), (0x25, .byte .andZp), (0x26, .byte .rolZp),
   (0x28, .none .plp), (0x29, .byte .andImm), (0x2A, .none .rolAcc), (0x2C, .word .bitAbs), (0x2D, .word .andAbs),
   (0x2E, .word .rolAbs)]

/-- Row 3 of the grid of R85. -/
def opRow3 : List (Byte × Shape) :=
  [(0x30, .byte .bmi), (0x31, .byte .andIndy), (0x35, .byte .andZpx), (0x36, .byte .rolZpx), (0x38, .none .sec),
   (0x39, .word .andAbsy), (0x3D, .word .andAbsx), (0x3E, .word .rolAbsx)]

/-- Row 4 of the grid of R85. -/
def opRow4 : List (Byte × Shape) :=
  [(0x40, .none .rti), (0x41, .byte .eorIndx), (0x45, .byte .eorZp), (0x46, .byte .lsrZp), (0x48, .none .pha),
   (0x49, .byte .eorImm), (0x4A, .none .lsrAcc), (0x4C, .word .jmpAbs), (0x4D, .word .eorAbs), (0x4E, .word .lsrAbs)]

/-- Row 5 of the grid of R85. -/
def opRow5 : List (Byte × Shape) :=
  [(0x50, .byte .bvc), (0x51, .byte .eorIndy), (0x55, .byte .eorZpx), (0x56, .byte .lsrZpx), (0x58, .none .cli),
   (0x59, .word .eorAbsy), (0x5D, .word .eorAbsx), (0x5E, .word .lsrAbsx)]

/-- Row 6 of the grid of R85. -/
def opRow6 : List (Byte × Shape) :=
  [(0x60, .none .rts), (0x61, .byte .adcIndx), (0x65, .byte .adcZp), (0x66, .byte .rorZp), (0x68, .none .pla),
   (0x69, .byte .adcImm), (0x6A, .none .rorAcc), (0x6C, .word .jmpInd), (0x6D, .word .adcAbs), (0x6E, .word .rorAbs)]

/-- Row 7 of the grid of R85. -/
def opRow7 : List (Byte × Shape) :=
  [(0x70, .byte .bvs), (0x71, .byte .adcIndy), (0x75, .byte .adcZpx), (0x76, .byte .rorZpx), (0x78, .none .sei),
   (0x79, .word .adcAbsy), (0x7D, .word .adcAbsx), (0x7E, .word .rorAbsx)]

/-- Row 8 of the grid of R85. -/
def opRow8 : List (Byte × Shape) :=
  [(0x81, .byte .staIndx), (0x84, .byte .styZp), (0x85, .byte .staZp), (0x86, .byte .stxZp), (0x88, .none .dey),
   (0x8A, .none .txa), (0x8C, .word .styAbs), (0x8D, .word .staAbs), (0x8E, .word .stxAbs)]

/-- Row 9 of the grid of R85. -/
def opRow9 : List (Byte × Shape) :=
  [(0x90, .byte .bcc), (0x91, .byte .staIndy), (0x94, .byte .styZpx), (0x95, .byte .staZpx), (0x96, .byte .stxZpy),
   (0x98, .none .tya), (0x99, .word .staAbsy), (0x9A, .none .txs), (0x9D, .word .staAbsx)]

/-- Row A of the grid of R85. -/
def opRowA : List (Byte × Shape) :=
  [(0xA0, .byte .ldyImm), (0xA1, .byte .ldaIndx), (0xA2, .byte .ldxImm), (0xA4, .byte .ldyZp), (0xA5, .byte .ldaZp),
   (0xA6, .byte .ldxZp), (0xA8, .none .tay), (0xA9, .byte .ldaImm), (0xAA, .none .tax), (0xAC, .word .ldyAbs),
   (0xAD, .word .ldaAbs), (0xAE, .word .ldxAbs)]

/-- Row B of the grid of R85. -/
def opRowB : List (Byte × Shape) :=
  [(0xB0, .byte .bcs), (0xB1, .byte .ldaIndy), (0xB4, .byte .ldyZpx), (0xB5, .byte .ldaZpx), (0xB6, .byte .ldxZpy),
   (0xB8, .none .clv), (0xB9, .word .ldaAbsy), (0xBA, .none .tsx), (0xBC, .word .ldyAbsx), (0xBD, .word .ldaAbsx),
   (0xBE, .word .ldxAbsy)]

/-- Row C of the grid of R85. -/
def opRowC : List (Byte × Shape) :=
  [(0xC0, .byte .cpyImm), (0xC1, .byte .cmpIndx), (0xC4, .byte .cpyZp), (0xC5, .byte .cmpZp), (0xC6, .byte .decZp),
   (0xC8, .none .iny), (0xC9, .byte .cmpImm), (0xCA, .none .dex), (0xCC, .word .cpyAbs), (0xCD, .word .cmpAbs),
   (0xCE, .word .decAbs)]

/-- Row D of the grid of R85. -/
def opRowD : List (Byte × Shape) :=
  [(0xD0, .byte .bne), (0xD1, .byte .cmpIndy), (0xD5, .byte .cmpZpx), (0xD6, .byte .decZpx), (0xD8, .none .cld),
   (0xD9, .word .cmpAbsy), (0xDD, .word .cmpAbsx), (0xDE, .word .decAbsx)]

/-- Row E of the grid of R85. -/
def opRowE : List (Byte × Shape) :=
  [(0xE0, .byte .cpxImm), (0xE1, .byte .sbcIndx), (0xE4, .byte .cpxZp), (0xE5, .byte .sbcZp), (0xE6, .byte .incZp),
   (0xE8, .none .inx), (0xE9, .byte .sbcImm), (0xEA, .none .nop), (0xEC, .word .cpxAbs), (0xED, .word .sbcAbs),
   (0xEE, .word .incAbs)]

/-- Row F of the grid of R85. -/
def opRowF : List (Byte × Shape) :=
  [(0xF0, .byte .beq), (0xF1, .byte .sbcIndy), (0xF5, .byte .sbcZpx), (0xF6, .byte .incZpx), (0xF8, .none .sed),
   (0xF9, .word .sbcAbsy), (0xFD, .word .sbcAbsx), (0xFE, .word .incAbsx)]

/-- The opcode map of R85: the 151 assigned opcode bytes. -/
def opTable : List (Byte × Shape) :=
  opRow0 ++ opRow1 ++ opRow2 ++ opRow3 ++ opRow4 ++ opRow5 ++ opRow6 ++ opRow7 ++
  opRow8 ++ opRow9 ++ opRowA ++ opRowB ++ opRowC ++ opRowD ++ opRowE ++ opRowF

/-- `OPMAP` of R91: the row of an opcode byte, or none for the 105 unassigned bytes (R87). -/
def opMap (op : Byte) : Option Shape :=
  (opTable.find? fun r => r.1 == op).map fun r => r.2

/-- The length of an instruction of this shape (R81). -/
def Shape.length : Shape → Nat
  | .none _ => 1
  | .byte _ => 2
  | .word _ => 3

/-- The length of an instruction from its opcode byte alone (R88). -/
def opLength (op : Byte) : Option Nat :=
  (opMap op).map Shape.length

/-- Why bytes do not decode. -/
inductive DecodeError where
  /-- There is no byte to decode. -/
  | noBytes
  /-- The byte is not assigned in R85. -/
  | unassigned (op : Byte)
  /-- The bytes end before the instruction does. -/
  | truncated (op : Byte)
deriving DecidableEq, Repr

/-- Decode the instruction at the front of a list of bytes, and give the bytes after it (R80, R85, R88). -/
def decode : List Byte → Except DecodeError (Instr × List Byte)
  | [] => .error .noBytes
  | op :: rest =>
    match opMap op, rest with
    | Option.none, _ => .error (.unassigned op)
    | some (.none i), rest => .ok (i, rest)
    | some (.byte mk), o1 :: rest => .ok (mk o1, rest)
    | some (.word mk), o1 :: o2 :: rest => .ok (mk (pair o2 o1), rest)
    | some _, _ => .error (.truncated op)

/-- The length of each format (R81). -/
def Mode.length : Mode → Nat
  | .imp | .acc => 1
  | .imm | .zp | .zpx | .zpy | .indx | .indy | .rel | .brk => 2
  | .abs | .absx | .absy | .ind => 3

/-- The opcode byte of an instruction (R85, the list per mnemonic). -/
def opcode : Instr → Byte
  | .ldaImm _ => 0xA9 | .ldaZp _ => 0xA5 | .ldaZpx _ => 0xB5 | .ldaAbs _ => 0xAD | .ldaAbsx _ => 0xBD
  | .ldaAbsy _ => 0xB9 | .ldaIndx _ => 0xA1 | .ldaIndy _ => 0xB1
  | .ldxImm _ => 0xA2 | .ldxZp _ => 0xA6 | .ldxZpy _ => 0xB6 | .ldxAbs _ => 0xAE | .ldxAbsy _ => 0xBE
  | .ldyImm _ => 0xA0 | .ldyZp _ => 0xA4 | .ldyZpx _ => 0xB4 | .ldyAbs _ => 0xAC | .ldyAbsx _ => 0xBC
  | .staZp _ => 0x85 | .staZpx _ => 0x95 | .staAbs _ => 0x8D | .staAbsx _ => 0x9D | .staAbsy _ => 0x99
  | .staIndx _ => 0x81 | .staIndy _ => 0x91
  | .stxZp _ => 0x86 | .stxZpy _ => 0x96 | .stxAbs _ => 0x8E
  | .styZp _ => 0x84 | .styZpx _ => 0x94 | .styAbs _ => 0x8C
  | .adcImm _ => 0x69 | .adcZp _ => 0x65 | .adcZpx _ => 0x75 | .adcAbs _ => 0x6D | .adcAbsx _ => 0x7D
  | .adcAbsy _ => 0x79 | .adcIndx _ => 0x61 | .adcIndy _ => 0x71
  | .sbcImm _ => 0xE9 | .sbcZp _ => 0xE5 | .sbcZpx _ => 0xF5 | .sbcAbs _ => 0xED | .sbcAbsx _ => 0xFD
  | .sbcAbsy _ => 0xF9 | .sbcIndx _ => 0xE1 | .sbcIndy _ => 0xF1
  | .andImm _ => 0x29 | .andZp _ => 0x25 | .andZpx _ => 0x35 | .andAbs _ => 0x2D | .andAbsx _ => 0x3D
  | .andAbsy _ => 0x39 | .andIndx _ => 0x21 | .andIndy _ => 0x31
  | .oraImm _ => 0x09 | .oraZp _ => 0x05 | .oraZpx _ => 0x15 | .oraAbs _ => 0x0D | .oraAbsx _ => 0x1D
  | .oraAbsy _ => 0x19 | .oraIndx _ => 0x01 | .oraIndy _ => 0x11
  | .eorImm _ => 0x49 | .eorZp _ => 0x45 | .eorZpx _ => 0x55 | .eorAbs _ => 0x4D | .eorAbsx _ => 0x5D
  | .eorAbsy _ => 0x59 | .eorIndx _ => 0x41 | .eorIndy _ => 0x51
  | .aslAcc => 0x0A | .aslZp _ => 0x06 | .aslZpx _ => 0x16 | .aslAbs _ => 0x0E | .aslAbsx _ => 0x1E
  | .lsrAcc => 0x4A | .lsrZp _ => 0x46 | .lsrZpx _ => 0x56 | .lsrAbs _ => 0x4E | .lsrAbsx _ => 0x5E
  | .rolAcc => 0x2A | .rolZp _ => 0x26 | .rolZpx _ => 0x36 | .rolAbs _ => 0x2E | .rolAbsx _ => 0x3E
  | .rorAcc => 0x6A | .rorZp _ => 0x66 | .rorZpx _ => 0x76 | .rorAbs _ => 0x6E | .rorAbsx _ => 0x7E
  | .cmpImm _ => 0xC9 | .cmpZp _ => 0xC5 | .cmpZpx _ => 0xD5 | .cmpAbs _ => 0xCD | .cmpAbsx _ => 0xDD
  | .cmpAbsy _ => 0xD9 | .cmpIndx _ => 0xC1 | .cmpIndy _ => 0xD1
  | .cpxImm _ => 0xE0 | .cpxZp _ => 0xE4 | .cpxAbs _ => 0xEC
  | .cpyImm _ => 0xC0 | .cpyZp _ => 0xC4 | .cpyAbs _ => 0xCC
  | .incZp _ => 0xE6 | .incZpx _ => 0xF6 | .incAbs _ => 0xEE | .incAbsx _ => 0xFE
  | .decZp _ => 0xC6 | .decZpx _ => 0xD6 | .decAbs _ => 0xCE | .decAbsx _ => 0xDE
  | .inx => 0xE8
  | .iny => 0xC8
  | .dex => 0xCA
  | .dey => 0x88
  | .bitZp _ => 0x24 | .bitAbs _ => 0x2C
  | .tax => 0xAA
  | .tay => 0xA8
  | .txa => 0x8A
  | .tya => 0x98
  | .tsx => 0xBA
  | .txs => 0x9A
  | .pha => 0x48
  | .pla => 0x68
  | .php => 0x08
  | .plp => 0x28
  | .jmpAbs _ => 0x4C | .jmpInd _ => 0x6C
  | .jsr _ => 0x20
  | .rts => 0x60
  | .brk _ => 0x00
  | .rti => 0x40
  | .bcc _ => 0x90
  | .bcs _ => 0xB0
  | .beq _ => 0xF0
  | .bmi _ => 0x30
  | .bne _ => 0xD0
  | .bpl _ => 0x10
  | .bvc _ => 0x50
  | .bvs _ => 0x70
  | .sec => 0x38
  | .clc => 0x18
  | .sed => 0xF8
  | .cld => 0xD8
  | .sei => 0x78
  | .cli => 0x58
  | .clv => 0xB8
  | .nop => 0xEA

/-- The operand bytes of a memory operand, the low byte of an address first (R81, R82). -/
def MemOperand.bytes : MemOperand → List Byte
  | .zp o | .zpx o | .zpy o | .indx o | .indy o => [o]
  | .abs w | .absx w | .absy w => [lo w, hi w]

/-- The operand bytes of an instruction (R81, R82). -/
def Operand.bytes : Operand → List Byte
  | .implied | .accumulator => []
  | .immediate v => [v]
  | .memory m => m.bytes
  | .relative d => [d]
  | .target w | .indirect w => [lo w, hi w]
  | .brk pad => [pad]

/-- The bytes of an instruction: its opcode byte, then its operand bytes (R80). -/
def encode (i : Instr) : List Byte :=
  opcode i :: i.operand.bytes

/-- The three bytes, first byte first, of a word numbered as spec/opcode_table.json numbers it: bit 0 is the least significant
bit of the first byte. The bits at and above `nbits` are 0. -/
def tableBytes (nbits w : Nat) : List Byte :=
  let v := w % 2 ^ nbits
  [BitVec.ofNat 8 v, BitVec.ofNat 8 (v / 256), BitVec.ofNat 8 (v / 65536)]

/-- The instruction the decoder reads from a word of the opcode table. -/
def decodeTableWord (nbits w : Nat) : Option Instr :=
  match decode (tableBytes nbits w) with
  | .ok (i, _) => some i
  | .error _ => Option.none

end Sys2Proof
end

