-- ==== Sys2Proof/Machine/Layout.lean ====
section
/-! DEFINITION. The fixed addresses of the machine (00_scope.md R5, 20_memory.md R55), and the configuration that
`State.reset` holds (log 2). -/

namespace Sys2Proof.Machine

/-- `KBD_DATA` (R5, 10_state.md R32). -/
def kbdData : Addr := 0xC000

/-- The soft switch that every configuration has: 0xC050 toggles `graphics` (R5). -/
def graphicsAddr : Addr := 0xC050

/-- `RESET_VECTOR`, the address of its low byte (R5). -/
def resetVector : Addr := 0xFFFC

/-- `BRK_VECTOR`, the address of its low byte (R5). -/
def brkVector : Addr := 0xFFFE

/-- `STACK_BASE` (R5, decision D6; log 12). -/
def stackBase : Addr := 0x0100

/-- All 151 opcode bytes of 30_encoding.md R85. -/
def assignedOpcodes : List Byte := opTable.map fun r => r.1

/-- The configuration of `State.reset`. DESIGN CHOICE, unsafe (log 2): the open parameters of R6 have no value in the spec, and
these are the values of the test configuration TC of 95_test_vectors.md section 2. -/
def resetConfig : Config where
  romBoundary := 0xC000
  softSwitches := [(0xC050, .graphics), (0xC052, .split), (0xC054, .page2), (0xC056, .hires)]
  strobeLo := 0xC010
  strobeHi := 0xC01F
  video1 := ⟨0x0400, 0x07FF⟩
  video2 := ⟨0x2000, 0x3FFF⟩
  implemented := assignedOpcodes
  jmpIndPageWrap := false
  bcdAdc := []
  bcdSbc := []

end Sys2Proof.Machine
end

