-- ==== Sys2Proof/Machine/Memory.lean ====
section
/-! DEFINITION. The memory of 20_memory.md R50 as a list of (address, byte) pairs in one canonical form. -/

namespace Sys2Proof.Machine

/-- `MEM_SIZE` (00_scope.md R5). -/
def memSize : Nat := 65536

/-- The bytes that differ from what an unlisted address reads as, by rising address. -/
abbrev Memory := List Host.Cell

/-- What an unlisted address reads as: memory outside the image is 0 after construction (10_state.md R35, decision D24; log 10). -/
def Memory.unlisted : Byte := 0

/-- The byte at an address given as a number. -/
def Memory.get : Memory → Nat → Byte
  | [], _ => Memory.unlisted
  | (k, v) :: m, a => if k = a then v else Memory.get m a

/-- The memory without its entry for `a`. -/
def Memory.erase (m : Memory) (a : Nat) : Memory :=
  m.filter fun c => c.1 != a

/-- A new entry, put in its place by address. -/
def Memory.insert : Memory → Nat → Byte → Memory
  | [], a, v => [(a, v)]
  | (k, w) :: m, a, v => if a < k then (a, v) :: (k, w) :: m else (k, w) :: Memory.insert m a v

/-- `m` with byte `v` at `a`, no entry being kept for a byte that an unlisted address reads as anyway. -/
def Memory.set (m : Memory) (a : Nat) (v : Byte) : Memory :=
  if v = Memory.unlisted then Memory.erase m a else Memory.insert (Memory.erase m a) a v

/-- `MemRead(a, 1)` (R50): no side effect. -/
def Memory.read (m : Memory) (a : Addr) : Byte := Memory.get m a.toNat

/-- `MemWrite(a, 1, v)` (R50): no side effect. -/
def Memory.write (m : Memory) (a : Addr) (v : Byte) : Memory := Memory.set m a.toNat v

/-- `Read16(a)`: low byte at `a`, high byte at `(a + 1) % 65536` (R52). -/
def Memory.read16 (m : Memory) (a : Addr) : Addr := pair (m.read (a + 1)) (m.read a)

/-- `Read16zp(z)`: low byte at `z`, high byte at `(z + 1) % 256`, both in page 0 (R52, R83, decision D18). -/
def Memory.read16zp (m : Memory) (z : Byte) : Addr :=
  pair (m.read (zext (z + 1))) (m.read (zext z))

/-- The canonical form from address `low` up: addresses strictly rising and inside the memory, no entry equal to what an
unlisted address reads as. -/
def Memory.wfFrom : Nat → Memory → Bool
  | _, [] => true
  | low, (k, v) :: m => decide (low ≤ k) && decide (k < memSize) && v != Memory.unlisted && Memory.wfFrom (k + 1) m

/-- The canonical form of a memory. -/
def Memory.wf (m : Memory) : Bool := Memory.wfFrom 0 m

/-- The memory that holds an image from address `a` on and nothing else (70_reset_and_hazards.md R270). -/
def Memory.loadFrom : Nat → List Byte → Memory
  | _, [] => []
  | a, b :: image => if b = Memory.unlisted then Memory.loadFrom (a + 1) image else (a, b) :: Memory.loadFrom (a + 1) image

end Sys2Proof.Machine
end

