-- ==== Sys2Proof/Machine/State.lean ====
section
/-! DEFINITION. The state of the machine (10_state.md R37), the reasons a step can stop, and the state after reset. -/

namespace Sys2Proof.Machine

/-- The reason of an `Unmodelled` stop: R245 has this one only. -/
inductive UnmodelledReason where
  /-- An instruction byte, or a byte of a JMP-indirect pointer, lies at an intercepted address (20_memory.md R62). -/
  | deviceFetch
deriving DecidableEq, Repr

/-- How a step can stop. Every one leaves the whole state as the step found it (30_encoding.md R93, 60_exceptions.md R240). -/
inductive Fault where
  /-- `Halted(UndefinedOpcode(byte, addr))`: raised by the fetch of a byte that is unassigned or not in `IMPLEMENTED_OPCODES`
  (R87, R241). The machine's own outcome: neither safe nor unsafe, the spec's. -/
  | undefinedOpcode (byte : Byte) (addr : Addr)
  /-- `Halted(AddressOutOfRange(addr))`: raised by an effective address at or above `MEM_SIZE` (R242). No 16-bit address is, so
  nothing raises it: safe (log 8). -/
  | addressOutOfRange (addr : Nat)
  /-- `Unmodelled(reason, addr)`: raised by the fetch of an instruction byte, and by JMP indirect for a pointer byte, at an
  intercepted address (R62, R245). The spec's own model-only fault: safe. -/
  | unmodelled (reason : UnmodelledReason) (addr : Addr)
deriving DecidableEq, Repr

/-- Why a step has no meaning for its instruction. -/
inductive Refusal where
  /-- Raised by an arm of `exec` that has no meaning yet; no arm raises it. Safe. -/
  | notModelled (mnemonic : String)
deriving DecidableEq, Repr

/-- The seven status flags (10_state.md R27). -/
structure Flags where
  /-- carry -/
  c : Bool
  /-- zero -/
  z : Bool
  /-- interrupt-disable: it gates nothing (60_exceptions.md R248) -/
  i : Bool
  /-- decimal -/
  d : Bool
  /-- break -/
  b : Bool
  /-- overflow -/
  v : Bool
  /-- negative -/
  n : Bool
deriving DecidableEq, Repr

/-- The soft switches (10_state.md R30). -/
structure Switches where
  graphics : Bool
  split : Bool
  page2 : Bool
  hires : Bool
deriving DecidableEq, Repr

/-- The complete machine state (10_state.md R37), with the configuration (log 1) and the count of draws (log 3). -/
structure State where
  /-- accumulator A (R20) -/
  a : Byte
  /-- index register X (R21) -/
  x : Byte
  /-- index register Y (R22) -/
  y : Byte
  /-- stack pointer SP (R23) -/
  sp : Byte
  /-- program counter PC (R25) -/
  pc : Addr
  /-- status flags (R27) -/
  flags : Flags
  /-- soft switches (R30) -/
  sw : Switches
  /-- display-dirty flag (R31) -/
  dirty : Bool
  /-- instruction counter (R33) -/
  icount : Nat
  /-- `BREAKPOINT`, set by the host (R34) -/
  breakpoint : Option Nat
  /-- memory (R35) -/
  mem : Memory
  /-- the configuration, fixed for the life of the machine (R6, R37) -/
  cfg : Config
  /-- the model's own: how many draws have been made (log 3) -/
  draws : Nat
deriving DecidableEq, Repr

def State.setA (s : State) (v : Byte) : State := { s with a := v }
def State.setX (s : State) (v : Byte) : State := { s with x := v }
def State.setY (s : State) (v : Byte) : State := { s with y := v }
def State.setSp (s : State) (v : Byte) : State := { s with sp := v }
def State.setPc (s : State) (v : Addr) : State := { s with pc := v }
def State.setFlags (s : State) (v : Flags) : State := { s with flags := v }
def State.setSw (s : State) (v : Switches) : State := { s with sw := v }
def State.setDirty (s : State) (v : Bool) : State := { s with dirty := v }
def State.setIcount (s : State) (v : Nat) : State := { s with icount := v }
def State.setBreakpoint (s : State) (v : Option Nat) : State := { s with breakpoint := v }
def State.setMem (s : State) (v : Memory) : State := { s with mem := v }
def State.setDraws (s : State) (v : Nat) : State := { s with draws := v }

/-- All seven flags 0, as after construction (R27, decision D23). -/
def Flags.cleared : Flags := ⟨false, false, false, false, false, false, false⟩

/-- All four soft switches false, as after construction (R30, decision D25). -/
def Switches.cleared : Switches := ⟨false, false, false, false⟩

/-- The machine right after construction with no image (70_reset_and_hazards.md R270, 10_state.md R37), in the configuration of
log 2. `dirty` is the first draw (R31, log 4). -/
def State.reset : State where
  a := 0
  x := 0
  y := 0
  sp := 0xFF
  pc := Memory.read16 [] resetVector
  flags := Flags.cleared
  sw := Switches.cleared
  dirty := Config.freeBit 0
  icount := 0
  breakpoint := none
  mem := []
  cfg := resetConfig
  draws := 1

end Sys2Proof.Machine
end

