-- ==== Sys2Proof/Machine/Flags.lean ====
section
/-! DEFINITION. The status byte (10_state.md R28, R29) and every flag computation: the ALU as functions of its operands and the
flags (41_arith_logic.md, 42_shift.md, 43_compare_incdec_bit.md). -/

namespace Sys2Proof.Machine

/-- `SetZN(r)` (R9). -/
def setZN (r : Byte) (f : Flags) : Flags := { f with z := r == 0, n := r.msb }

/-- `Pack()` (R28): N V 1 B D I Z C, from bit 7 down to bit 0. -/
def packStatus (f : Flags) : Byte :=
  BitVec.ofBool f.n ++ BitVec.ofBool f.v ++ 1#1 ++ BitVec.ofBool f.b ++
  BitVec.ofBool f.d ++ BitVec.ofBool f.i ++ BitVec.ofBool f.z ++ BitVec.ofBool f.c

/-- `PushedStatus()` (R28): bits 5 and 4 forced to 1. -/
def pushedStatus (f : Flags) : Byte := packStatus f ||| 0x30

/-- `UnpackRTI(p)` (R29): all flags but B. -/
def unpackRti (p : Byte) (f : Flags) : Flags :=
  { f with n := p.getLsbD 7, v := p.getLsbD 6, d := p.getLsbD 3, i := p.getLsbD 2, z := p.getLsbD 1, c := p.getLsbD 0 }

/-- `UnpackAll(p)` (R29): all seven flags; bit 5 is ignored. -/
def unpackAll (p : Byte) (f : Flags) : Flags := { unpackRti p f with b := p.getLsbD 4 }

/-- The low nibble of a byte, `b[3:0]`. -/
def nibLo (b : Byte) : Nat := b.toNat % 16

/-- The high nibble of a byte, `b[7:4]`. -/
def nibHi (b : Byte) : Nat := b.toNat / 16

/-- `valid(b)` of R124: both nibbles are decimal digits. -/
def bcdValid (b : Byte) : Bool := decide (nibHi b ≤ 9) && decide (nibLo b ≤ 9)

/-- `bcd(b)` of R124. -/
def bcdValue (b : Byte) : Nat := 10 * nibHi b + nibLo b

/-- `enc(n)` of R124, for `n` in 0..99. -/
def bcdEnc (n : Nat) : Byte := BitVec.ofNat 8 (n / 10 * 16 + n % 10)

/-- What the law of R124 says of `BCD_ADC` on valid operands. -/
def bcdAdcLaw (a m : Byte) (c : Bool) : Byte × Bool :=
  let t := bcdValue a + bcdValue m + bit c
  (bcdEnc (t % 100), decide (t ≥ 100))

/-- What the law of R124 says of `BCD_SBC` on valid operands. -/
def bcdSbcLaw (a m : Byte) (c : Bool) : Byte × Bool :=
  let t : Int := (bcdValue a : Int) - bcdValue m - (1 - bit c)
  (bcdEnc (t % 100).toNat, decide (t ≥ 0))

/-- `BCD_ADC_default` (R122). -/
def bcdAdcDefault (a m : Byte) (c : Bool) : Byte × Bool :=
  let lo := nibLo a + nibLo m + bit c
  let hi := nibHi a + nibHi m
  let (lo, hi) := if lo > 9 then (lo - 10, hi + 1) else (lo, hi)
  let (hi, carry) := if hi > 9 then (hi - 10, true) else (hi, false)
  (BitVec.ofNat 8 (hi % 16 * 16 + lo % 16), carry)

/-- `BCD_SBC_default` (R123); `%` of a negative number is non-negative (R8). -/
def bcdSbcDefault (a m : Byte) (c : Bool) : Byte × Bool :=
  let lo : Int := (nibLo a : Int) - nibLo m - (1 - bit c)
  let hi : Int := (nibHi a : Int) - nibHi m
  let (lo, hi) := if lo < 0 then (lo + 10, hi - 1) else (lo, hi)
  let (hi, carry) := if hi < 0 then (hi + 10, false) else (hi, true)
  (BitVec.ofInt 8 (hi % 16 * 16 + lo % 16), carry)

/-- What a table of values says for these operands, if anything; of two entries for them, the first. -/
def bcdLookup (rule : BcdRule) (a m : Byte) (c : Bool) : Option (Byte × Bool) :=
  (rule.find? fun e => e.a == a && e.m == m && e.c == c).map fun e => (e.result, e.carry)

/-- A decimal function of the configuration (R6): the default on valid operands, where the default follows the law of R124; on all
others the value supplied, or the default where none is (R122, R123; log 5). -/
def bcdConfigured (dflt : Byte → Byte → Bool → Byte × Bool) (rule : BcdRule) (a m : Byte) (c : Bool) : Byte × Bool :=
  if bcdValid a && bcdValid m then dflt a m c else (bcdLookup rule a m c).getD (dflt a m c)

/-- `BCD_ADC` of the configuration (R6, R122, R124). -/
def bcdAdc (rule : BcdRule) (a m : Byte) (c : Bool) : Byte × Bool := bcdConfigured bcdAdcDefault rule a m c

/-- `BCD_SBC` of the configuration (R6, R123, R124). -/
def bcdSbc (rule : BcdRule) (a m : Byte) (c : Bool) : Byte × Bool := bcdConfigured bcdSbcDefault rule a m c

/-- All 256 bytes. -/
def allBytes : List Byte := (List.range 256).map (BitVec.ofNat 8)

/-- A function as an argument of the machine: the table of all its values (R6: a total function of two bytes and a carry). -/
def bcdTable (f : Byte → Byte → Bool → Byte × Bool) : BcdRule :=
  allBytes.flatMap fun a => allBytes.flatMap fun m => [false, true].map fun c => ⟨a, m, c, (f a m c).1, (f a m c).2⟩

/-- ADC (R120): the new accumulator and the new flags. -/
def aluAdc (rule : BcdRule) (a m : Byte) (f : Flags) : Byte × Flags :=
  if f.d then
    let r := bcdAdc rule a m f.c
    (r.1, setZN r.1 { f with c := r.2 })
  else
    let s := a.toNat + m.toNat + bit f.c
    let r := BitVec.ofNat 8 s
    (r, setZN r { f with c := decide (s ≥ 256), v := ((a ^^^ r) &&& (m ^^^ r) &&& 0x80) != 0 })

/-- SBC (R121): the new accumulator and the new flags. -/
def aluSbc (rule : BcdRule) (a m : Byte) (f : Flags) : Byte × Flags :=
  if f.d then
    let r := bcdSbc rule a m f.c
    (r.1, setZN r.1 { f with c := r.2 })
  else
    let d : Int := (a.toNat : Int) - m.toNat - (1 - bit f.c)
    let r := BitVec.ofInt 8 d
    (r, setZN r { f with c := decide (d ≥ 0), v := ((a ^^^ m) &&& (a ^^^ r) &&& 0x80) != 0 })

/-- AND (R126). -/
def aluAnd (a m : Byte) (f : Flags) : Byte × Flags := (a &&& m, setZN (a &&& m) f)

/-- ORA (R127). -/
def aluOra (a m : Byte) (f : Flags) : Byte × Flags := (a ||| m, setZN (a ||| m) f)

/-- EOR (R128). -/
def aluEor (a m : Byte) (f : Flags) : Byte × Flags := (a ^^^ m, setZN (a ^^^ m) f)

/-- ASL (R140). -/
def aluAsl (m : Byte) (f : Flags) : Byte × Flags :=
  let r := m <<< 1
  (r, setZN r { f with c := m.getLsbD 7 })

/-- LSR (R141). -/
def aluLsr (m : Byte) (f : Flags) : Byte × Flags :=
  let r := m >>> 1
  (r, setZN r { f with c := m.getLsbD 0 })

/-- ROL (R142): the old carry goes into bit 0. -/
def aluRol (m : Byte) (f : Flags) : Byte × Flags :=
  let r := (m <<< 1) ||| BitVec.ofNat 8 (bit f.c)
  (r, setZN r { f with c := m.getLsbD 7 })

/-- ROR (R143): the old carry goes into bit 7, and N is that bit (90_conflicts.md C4). -/
def aluRor (m : Byte) (f : Flags) : Byte × Flags :=
  let r := (m >>> 1) ||| BitVec.ofNat 8 (bit f.c * 128)
  (r, setZN r { f with c := m.getLsbD 0 })

/-- The flags of a comparison of register `r` with `m` (R150): the incoming carry plays no part. -/
def aluCompare (r m : Byte) (f : Flags) : Flags :=
  { f with c := decide (m.toNat ≤ r.toNat), z := r == m, n := (r - m).msb }

/-- INC (R153): carry and overflow are unchanged. -/
def aluInc (m : Byte) (f : Flags) : Byte × Flags := (m + 1, setZN (m + 1) f)

/-- DEC (R154). -/
def aluDec (m : Byte) (f : Flags) : Byte × Flags := (m - 1, setZN (m - 1) f)

/-- The flags of BIT (R159): Z from `A & M`, V and N from bits 6 and 7 of `M`. -/
def aluBit (a m : Byte) (f : Flags) : Flags :=
  { f with z := (a &&& m) == 0, v := m.getLsbD 6, n := m.getLsbD 7 }

end Sys2Proof.Machine
end

