-- ==== Sys2Proof/Machine/Ops.lean ====
section
/-! DEFINITION. The shared operations over memory and registers: the I/O dispatcher (20_memory.md R56-R62), the stack (R63),
advancing the program counter, and the machine's one trap with its return (60_exceptions.md R250, R252). -/

namespace Sys2Proof.Machine

/-- What one instruction answers. -/
abbrev Out := Host.Outcome State Fault Refusal

/-- The switch that an address toggles, if it is in `SOFT_SWITCHES` (R57; log 13). -/
def switchAt (cfg : Config) (a : Addr) : Option Switch :=
  (cfg.softSwitches.find? fun e => e.1 == a).map fun e => e.2

/-- `KBD_STROBE_LO <= a <= KBD_STROBE_HI` (R57). -/
def inStrobe (cfg : Config) (a : Addr) : Bool :=
  decide (cfg.strobeLo.toNat ≤ a.toNat) && decide (a.toNat ≤ cfg.strobeHi.toNat)

/-- `a` is in `Intercepted` (R62). -/
def intercepted (cfg : Config) (a : Addr) : Bool :=
  (switchAt cfg a).isSome || inStrobe cfg a

/-- `a` is in an inclusive window of addresses. -/
def inWindow (w : Window) (a : Addr) : Bool :=
  decide (w.lo.toNat ≤ a.toNat) && decide (a.toNat ≤ w.hi.toNat)

/-- `a` is in `VIDEO_WIN_1` or in `VIDEO_WIN_2` (R61). -/
def inVideo (cfg : Config) (a : Addr) : Bool :=
  inWindow cfg.video1 a || inWindow cfg.video2 a

/-- `ToggleSwitch(s)` (R58): one boolean is inverted and nothing else happens. -/
def toggle (w : Switch) (s : Switches) : Switches :=
  match w with
  | .graphics => { s with graphics := !s.graphics }
  | .split => { s with split := !s.split }
  | .page2 => { s with page2 := !s.page2 }
  | .hires => { s with hires := !s.hires }

/-- The switches after an access to `a` (R57, R58). -/
def switchesAfter (cfg : Config) (a : Addr) (s : Switches) : Switches :=
  match switchAt cfg a with
  | some w => toggle w s
  | none => s

/-- The memory after an access to `a`: the strobe clear (R57, R59) writes bit 7 of `KBD_DATA` directly, past the ROM boundary. -/
def memAfter (cfg : Config) (a : Addr) (m : Memory) : Memory :=
  if inStrobe cfg a then m.write kbdData (m.read kbdData &&& 0x7F) else m

/-- `Access(ea)` (R57). -/
def access (ea : Addr) (s : State) : State :=
  (s.setSw (switchesAfter s.cfg ea s.sw)).setMem (memAfter s.cfg ea s.mem)

/-- `Store(a, v)` (R61): `dirty` is set in a video window even when the write is discarded (decision D33), and a write at or above
`ROM_BOUNDARY` is discarded (R56). -/
def store (a : Addr) (v : Byte) (s : State) : State :=
  (s.setDirty (s.dirty || inVideo s.cfg a)).setMem
    (if a.toNat < s.cfg.romBoundary.val then s.mem.write a v else s.mem)

/-- The stack byte that `SP` addresses: `STACK_BASE + SP` (10_state.md R23). -/
def stackAddr (sp : Byte) : Addr := stackBase + zext sp

/-- `Push(v)` (R63): the byte is stored, then `SP` decrements modulo 256. -/
def push (v : Byte) (s : State) : State :=
  (store (stackAddr s.sp) v s).setSp (s.sp - 1)

/-- Two pushes, high byte first (R52). -/
def pushWord (w : Addr) (s : State) : State := push (lo w) (push (hi w) s)

/-- The byte that `Pull()` returns (R63): `SP` has incremented before the read. -/
def pulled (s : State) : Byte := s.mem.read (stackAddr (s.sp + 1))

/-- The state after `Pull()` (R63). -/
def afterPull (s : State) : State := s.setSp (s.sp + 1)

/-- The word that two pulls give, low byte first (R52). -/
def pulledWord (s : State) : Addr := pair (pulled (afterPull s)) (pulled s)

/-- The state after two pulls. -/
def afterPullWord (s : State) : State := afterPull (afterPull s)

/-- `PC` moves past an instruction of `len` bytes, modulo 65536 (10_state.md R25). -/
def advance (len : Nat) (s : State) : State := s.setPc (s.pc + BitVec.ofNat 16 len)

/-- Taking the machine's one trap (R195, R250): the return address and the status byte are pushed, `I` is set, and `PC` is loaded
from the vector at 0xFFFE. The pushed status has `I` as it was before. -/
def enterTrap (ret : Addr) (s : State) : State :=
  let t := push (pushedStatus s.flags) (pushWord ret s)
  (t.setFlags { t.flags with i := true }).setPc (t.mem.read16 brkVector)

/-- Returning from the trap (R196, R252): the status byte first, every flag but `B` from it, then `PC` with no correction. -/
def returnFromTrap (s : State) : State :=
  let t := (afterPull s).setFlags (unpackRti (pulled s) s.flags)
  (afterPullWord t).setPc (pulledWord t)

end Sys2Proof.Machine
end

