-- ==== Sys2Proof/Machine/Operands.lean ====
section
/-! DEFINITION. Every operand form: the addressing-mode resolver (30_encoding.md R83), the operand read (20_memory.md R60, R92), and
the shapes that instructions share: read an operand, write an operand, read and write one. -/

namespace Sys2Proof.Machine

/-- `Resolve` for the eight modes whose address goes through the dispatcher (R83). The pointer reads are plain memory reads. -/
def effectiveAddr (m : MemOperand) (s : State) : Addr :=
  match m with
  | .zp o => zext o
  | .zpx o => zext (o + s.x)
  | .zpy o => zext (o + s.y)
  | .abs w => w
  | .absx w => w + zext s.x
  | .absy w => w + zext s.y
  | .indx o => s.mem.read16zp (o + s.x)
  | .indy o => s.mem.read16zp o + zext s.y

/-- Where an immediate's value stands: `(op_addr + 1) % 65536` (R83, the row `imm`). -/
def immediateAddr (s : State) : Addr := s.pc + 1

/-- The length of an instruction with this memory operand (R81). -/
def memLength (m : MemOperand) : Nat := m.mode.length

/-- The one case in which the strobe clear and the operand read hit the same byte (R60). -/
def strobeRace (ea : Addr) (s : State) : Bool := ea == kbdData && inStrobe s.cfg kbdData

/-- `Load(ea)`, after `Access(ea)` (R57, R60): the byte there; in the one racing case a draw of the byte before and the byte after
the access (log 3). -/
def loaded (ea : Addr) (s : State) : Byte :=
  if strobeRace ea s && Config.freeBit s.draws then s.mem.read ea else (access ea s).mem.read ea

/-- The state after `Access(ea)` and `Load(ea)`: a racing read has used up one draw. -/
def afterLoad (ea : Addr) (s : State) : State :=
  (access ea s).setDraws (if strobeRace ea s then s.draws + 1 else s.draws)

/-- Resolve a memory operand, check its address against `MEM_SIZE` (20_memory.md R51, 30_encoding.md R91; log 8), and go on with it. -/
def withAddr (m : MemOperand) (s : State) (k : Addr → State) : Out :=
  let ea := effectiveAddr m s
  if ea.toNat ≥ memSize then .fault (.addressOutOfRange ea.toNat) else .next (k ea)

/-- The operand value `M` of a source (R92). -/
def operandByte (src : Source) (s : State) : Byte :=
  match src with
  | .imm v => v
  | .mem m => loaded (effectiveAddr m s) s

/-- The state after reading a source (R57, R92): an immediate touches nothing. -/
def afterOperand (src : Source) (s : State) : State :=
  match src with
  | .imm _ => s
  | .mem m => afterLoad (effectiveAddr m s) s

/-- The length of an instruction with this source (R81). -/
def sourceLength (src : Source) : Nat := src.operand.mode.length

/-- An instruction that reads one operand: `f` is its effect, given `M` and the state after the read; then `PC` moves on (R91). -/
def readOperand (src : Source) (s : State) (f : Byte → State → State) : Out :=
  match src with
  | .imm v => .next (advance (sourceLength src) (f v s))
  | .mem m => withAddr m s fun ea => advance (sourceLength src) (f (loaded ea s) (afterLoad ea s))

/-- An instruction that only writes its operand: `Access(ea)`, then `Store(ea, v)` (R57, R92, R113). -/
def writeOperand (m : MemOperand) (v : Byte) (s : State) : Out :=
  withAddr m s fun ea => advance (memLength m) (store ea v (access ea s))

/-- An instruction that reads and writes its target once each (42_shift.md, R153): `f` gives the result and the flags. A discarded
store leaves the flags as computed (decision D42). -/
def modifyTarget (t : Target) (s : State) (f : Byte → Flags → Byte × Flags) : Out :=
  match t with
  | .acc =>
    let r := f s.a s.flags
    .next (advance 1 ((s.setA r.1).setFlags r.2))
  | .mem m => withAddr m s fun ea =>
    let r := f (loaded ea s) s.flags
    advance (memLength m) ((store ea r.1 (afterLoad ea s)).setFlags r.2)

end Sys2Proof.Machine
end

