-- ==== Sys2Proof/Machine/Arith.lean ====
section
/-! DEFINITION. Arithmetic and logic (41_arith_logic.md). -/

namespace Sys2Proof.Machine

/-- ADC (R120) of the accumulator and the operand. -/
def doAdc (src : Source) (s : State) : Out :=
  readOperand src s fun m t =>
    let r := aluAdc t.cfg.bcdAdc t.a m t.flags
    (t.setA r.1).setFlags r.2

/-- ADC, immediate (R120). -/
def execAdcImm (v : Byte) (s : State) : Out := doAdc (.imm v) s

/-- ADC, zero page (R120). -/
def execAdcZp (o : Byte) (s : State) : Out := doAdc (.mem (.zp o)) s

/-- ADC, zero page,X (R120). -/
def execAdcZpx (o : Byte) (s : State) : Out := doAdc (.mem (.zpx o)) s

/-- ADC, absolute (R120). -/
def execAdcAbs (w : Addr) (s : State) : Out := doAdc (.mem (.abs w)) s

/-- ADC, absolute,X (R120). -/
def execAdcAbsx (w : Addr) (s : State) : Out := doAdc (.mem (.absx w)) s

/-- ADC, absolute,Y (R120). -/
def execAdcAbsy (w : Addr) (s : State) : Out := doAdc (.mem (.absy w)) s

/-- ADC, (indirect,X) (R120). -/
def execAdcIndx (o : Byte) (s : State) : Out := doAdc (.mem (.indx o)) s

/-- ADC, (indirect),Y (R120). -/
def execAdcIndy (o : Byte) (s : State) : Out := doAdc (.mem (.indy o)) s

/-- SBC (R121) of the accumulator and the operand. -/
def doSbc (src : Source) (s : State) : Out :=
  readOperand src s fun m t =>
    let r := aluSbc t.cfg.bcdSbc t.a m t.flags
    (t.setA r.1).setFlags r.2

/-- SBC, immediate (R121). -/
def execSbcImm (v : Byte) (s : State) : Out := doSbc (.imm v) s

/-- SBC, zero page (R121). -/
def execSbcZp (o : Byte) (s : State) : Out := doSbc (.mem (.zp o)) s

/-- SBC, zero page,X (R121). -/
def execSbcZpx (o : Byte) (s : State) : Out := doSbc (.mem (.zpx o)) s

/-- SBC, absolute (R121). -/
def execSbcAbs (w : Addr) (s : State) : Out := doSbc (.mem (.abs w)) s

/-- SBC, absolute,X (R121). -/
def execSbcAbsx (w : Addr) (s : State) : Out := doSbc (.mem (.absx w)) s

/-- SBC, absolute,Y (R121). -/
def execSbcAbsy (w : Addr) (s : State) : Out := doSbc (.mem (.absy w)) s

/-- SBC, (indirect,X) (R121). -/
def execSbcIndx (o : Byte) (s : State) : Out := doSbc (.mem (.indx o)) s

/-- SBC, (indirect),Y (R121). -/
def execSbcIndy (o : Byte) (s : State) : Out := doSbc (.mem (.indy o)) s

/-- AND (R126) of the accumulator and the operand. -/
def doAnd (src : Source) (s : State) : Out :=
  readOperand src s fun m t =>
    let r := aluAnd t.a m t.flags
    (t.setA r.1).setFlags r.2

/-- AND, immediate (R126). -/
def execAndImm (v : Byte) (s : State) : Out := doAnd (.imm v) s

/-- AND, zero page (R126). -/
def execAndZp (o : Byte) (s : State) : Out := doAnd (.mem (.zp o)) s

/-- AND, zero page,X (R126). -/
def execAndZpx (o : Byte) (s : State) : Out := doAnd (.mem (.zpx o)) s

/-- AND, absolute (R126). -/
def execAndAbs (w : Addr) (s : State) : Out := doAnd (.mem (.abs w)) s

/-- AND, absolute,X (R126). -/
def execAndAbsx (w : Addr) (s : State) : Out := doAnd (.mem (.absx w)) s

/-- AND, absolute,Y (R126). -/
def execAndAbsy (w : Addr) (s : State) : Out := doAnd (.mem (.absy w)) s

/-- AND, (indirect,X) (R126). -/
def execAndIndx (o : Byte) (s : State) : Out := doAnd (.mem (.indx o)) s

/-- AND, (indirect),Y (R126). -/
def execAndIndy (o : Byte) (s : State) : Out := doAnd (.mem (.indy o)) s

/-- ORA (R127) of the accumulator and the operand. -/
def doOra (src : Source) (s : State) : Out :=
  readOperand src s fun m t =>
    let r := aluOra t.a m t.flags
    (t.setA r.1).setFlags r.2

/-- ORA, immediate (R127). -/
def execOraImm (v : Byte) (s : State) : Out := doOra (.imm v) s

/-- ORA, zero page (R127). -/
def execOraZp (o : Byte) (s : State) : Out := doOra (.mem (.zp o)) s

/-- ORA, zero page,X (R127). -/
def execOraZpx (o : Byte) (s : State) : Out := doOra (.mem (.zpx o)) s

/-- ORA, absolute (R127). -/
def execOraAbs (w : Addr) (s : State) : Out := doOra (.mem (.abs w)) s

/-- ORA, absolute,X (R127). -/
def execOraAbsx (w : Addr) (s : State) : Out := doOra (.mem (.absx w)) s

/-- ORA, absolute,Y (R127). -/
def execOraAbsy (w : Addr) (s : State) : Out := doOra (.mem (.absy w)) s

/-- ORA, (indirect,X) (R127). -/
def execOraIndx (o : Byte) (s : State) : Out := doOra (.mem (.indx o)) s

/-- ORA, (indirect),Y (R127). -/
def execOraIndy (o : Byte) (s : State) : Out := doOra (.mem (.indy o)) s

/-- EOR (R128) of the accumulator and the operand. -/
def doEor (src : Source) (s : State) : Out :=
  readOperand src s fun m t =>
    let r := aluEor t.a m t.flags
    (t.setA r.1).setFlags r.2

/-- EOR, immediate (R128). -/
def execEorImm (v : Byte) (s : State) : Out := doEor (.imm v) s

/-- EOR, zero page (R128). -/
def execEorZp (o : Byte) (s : State) : Out := doEor (.mem (.zp o)) s

/-- EOR, zero page,X (R128). -/
def execEorZpx (o : Byte) (s : State) : Out := doEor (.mem (.zpx o)) s

/-- EOR, absolute (R128). -/
def execEorAbs (w : Addr) (s : State) : Out := doEor (.mem (.abs w)) s

/-- EOR, absolute,X (R128). -/
def execEorAbsx (w : Addr) (s : State) : Out := doEor (.mem (.absx w)) s

/-- EOR, absolute,Y (R128). -/
def execEorAbsy (w : Addr) (s : State) : Out := doEor (.mem (.absy w)) s

/-- EOR, (indirect,X) (R128). -/
def execEorIndx (o : Byte) (s : State) : Out := doEor (.mem (.indx o)) s

/-- EOR, (indirect),Y (R128). -/
def execEorIndy (o : Byte) (s : State) : Out := doEor (.mem (.indy o)) s

end Sys2Proof.Machine
end

