-- ==== Sys2Proof/Machine/Compare.lean ====
section
/-! DEFINITION. Compare, increment, decrement and bit test (43_compare_incdec_bit.md). None depends on D (41_arith_logic.md R125). -/

namespace Sys2Proof.Machine

/-- A comparison of a register's value with the operand (R150-R152): only C, Z and N change. -/
def compareWith (r : Byte) (src : Source) (s : State) : Out :=
  readOperand src s fun m t => t.setFlags (aluCompare r m t.flags)

/-- CMP, immediate (R150). -/
def execCmpImm (v : Byte) (s : State) : Out := compareWith s.a (.imm v) s

/-- CMP, zero page (R150). -/
def execCmpZp (o : Byte) (s : State) : Out := compareWith s.a (.mem (.zp o)) s

/-- CMP, zero page,X (R150). -/
def execCmpZpx (o : Byte) (s : State) : Out := compareWith s.a (.mem (.zpx o)) s

/-- CMP, absolute (R150). -/
def execCmpAbs (w : Addr) (s : State) : Out := compareWith s.a (.mem (.abs w)) s

/-- CMP, absolute,X (R150). -/
def execCmpAbsx (w : Addr) (s : State) : Out := compareWith s.a (.mem (.absx w)) s

/-- CMP, absolute,Y (R150). -/
def execCmpAbsy (w : Addr) (s : State) : Out := compareWith s.a (.mem (.absy w)) s

/-- CMP, (indirect,X) (R150). -/
def execCmpIndx (o : Byte) (s : State) : Out := compareWith s.a (.mem (.indx o)) s

/-- CMP, (indirect),Y (R150). -/
def execCmpIndy (o : Byte) (s : State) : Out := compareWith s.a (.mem (.indy o)) s

/-- CPX, immediate (R151). -/
def execCpxImm (v : Byte) (s : State) : Out := compareWith s.x (.imm v) s

/-- CPX, zero page (R151). -/
def execCpxZp (o : Byte) (s : State) : Out := compareWith s.x (.mem (.zp o)) s

/-- CPX, absolute (R151). -/
def execCpxAbs (w : Addr) (s : State) : Out := compareWith s.x (.mem (.abs w)) s

/-- CPY, immediate (R152). -/
def execCpyImm (v : Byte) (s : State) : Out := compareWith s.y (.imm v) s

/-- CPY, zero page (R152). -/
def execCpyZp (o : Byte) (s : State) : Out := compareWith s.y (.mem (.zp o)) s

/-- CPY, absolute (R152). -/
def execCpyAbs (w : Addr) (s : State) : Out := compareWith s.y (.mem (.abs w)) s

/-! INC and DEC of a byte of memory (R153, R154). -/

/-- INC, zero page (R153). -/
def execIncZp (o : Byte) (s : State) : Out := modifyTarget (.mem (.zp o)) s aluInc

/-- INC, zero page,X (R153). -/
def execIncZpx (o : Byte) (s : State) : Out := modifyTarget (.mem (.zpx o)) s aluInc

/-- INC, absolute (R153). -/
def execIncAbs (w : Addr) (s : State) : Out := modifyTarget (.mem (.abs w)) s aluInc

/-- INC, absolute,X (R153). -/
def execIncAbsx (w : Addr) (s : State) : Out := modifyTarget (.mem (.absx w)) s aluInc

/-- DEC, zero page (R154). -/
def execDecZp (o : Byte) (s : State) : Out := modifyTarget (.mem (.zp o)) s aluDec

/-- DEC, zero page,X (R154). -/
def execDecZpx (o : Byte) (s : State) : Out := modifyTarget (.mem (.zpx o)) s aluDec

/-- DEC, absolute (R154). -/
def execDecAbs (w : Addr) (s : State) : Out := modifyTarget (.mem (.abs w)) s aluDec

/-- DEC, absolute,X (R154). -/
def execDecAbsx (w : Addr) (s : State) : Out := modifyTarget (.mem (.absx w)) s aluDec

/-! Increment and decrement of an index register (R155-R158): no memory access. -/

/-- INX, implied (R155). -/
def execInx (s : State) : Out := .next (advance 1 ((s.setX (aluInc s.x s.flags).1).setFlags (aluInc s.x s.flags).2))

/-- INY, implied (R156). -/
def execIny (s : State) : Out := .next (advance 1 ((s.setY (aluInc s.y s.flags).1).setFlags (aluInc s.y s.flags).2))

/-- DEX, implied (R157). -/
def execDex (s : State) : Out := .next (advance 1 ((s.setX (aluDec s.x s.flags).1).setFlags (aluDec s.x s.flags).2))

/-- DEY, implied (R158). -/
def execDey (s : State) : Out := .next (advance 1 ((s.setY (aluDec s.y s.flags).1).setFlags (aluDec s.y s.flags).2))

/-- BIT (R159): only Z, V and N change. -/
def doBit (src : Source) (s : State) : Out :=
  readOperand src s fun m t => t.setFlags (aluBit t.a m t.flags)

/-- BIT, zero page (R159). -/
def execBitZp (o : Byte) (s : State) : Out := doBit (.mem (.zp o)) s

/-- BIT, absolute (R159). -/
def execBitAbs (w : Addr) (s : State) : Out := doBit (.mem (.abs w)) s

end Sys2Proof.Machine
end

