-- ==== Sys2Proof/Machine/Control.lean ====
section
/-! DEFINITION. Jumps, subroutines, BRK and RTI, branches (45_control.md). None calls `Access`. -/

namespace Sys2Proof.Machine

/-- Where JMP indirect reads the high byte of its target, for the pointer `p` (R191): inside the page of `p` when
`JMP_IND_PAGE_WRAP`, else at the next address. -/
def pointerHigh (cfg : Config) (p : Addr) : Addr :=
  if cfg.jmpIndPageWrap then (p &&& 0xFF00) ||| ((p + 1) &&& 0x00FF) else p + 1

/-- The address that `Unmodelled` reports for the pointer bytes at `p` and `p1`, one of which is intercepted: the first intercepted one
in fetch order (60_exceptions.md R245; DEDUCED where R191 and R249 write `p`, log 6). -/
def pointerFault (cfg : Config) (p p1 : Addr) : Addr := if intercepted cfg p then p else p1

/-- JMP indirect (R191): a pointer byte at an intercepted address is refused before any state changes (R62). -/
def jumpIndirect (p : Addr) (s : State) : Out :=
  let p1 := pointerHigh s.cfg p
  if intercepted s.cfg p || intercepted s.cfg p1 then .fault (.unmodelled .deviceFetch (pointerFault s.cfg p p1))
  else .next (s.setPc (pair (s.mem.read p1) (s.mem.read p)))

/-- JMP, absolute (R190). -/
def execJmpAbs (w : Addr) (s : State) : Out := .next (s.setPc w)

/-- JMP, indirect (R191). -/
def execJmpInd (w : Addr) (s : State) : Out := jumpIndirect w s

/-! Subroutines (R192, R193): JSR pushes the address of its own last byte, RTS adds one to what it pulls. -/

/-- JSR, absolute (R192). -/
def execJsr (w : Addr) (s : State) : Out := .next ((pushWord (s.pc + 2) s).setPc w)

/-- RTS, implied (R193). -/
def execRts (s : State) : Out := .next ((afterPullWord s).setPc (pulledWord s + 1))

/-! The software interrupt (R195) and its return (R196). The byte after a BRK is ignored. -/

/-- BRK, the two-byte form (R195). -/
def execBrk (_pad : Byte) (s : State) : Out := .next (enterTrap (s.pc + 2) s)

/-- RTI, implied (R196). -/
def execRti (s : State) : Out := .next (returnFromTrap s)

/-- The common branch rule (R205): the displacement counts from the next instruction, modulo 65536. -/
def branch (cond : Bool) (d : Byte) (s : State) : Out :=
  .next (if cond then s.setPc (s.pc + 2 + sext d) else advance 2 s)

/-- BCC, relative (R206). -/
def execBcc (d : Byte) (s : State) : Out := branch (!s.flags.c) d s

/-- BCS, relative (R207). -/
def execBcs (d : Byte) (s : State) : Out := branch s.flags.c d s

/-- BEQ, relative (R208). -/
def execBeq (d : Byte) (s : State) : Out := branch s.flags.z d s

/-- BMI, relative (R209). -/
def execBmi (d : Byte) (s : State) : Out := branch s.flags.n d s

/-- BNE, relative (R210). -/
def execBne (d : Byte) (s : State) : Out := branch (!s.flags.z) d s

/-- BPL, relative (R211). -/
def execBpl (d : Byte) (s : State) : Out := branch (!s.flags.n) d s

/-- BVC, relative (R212). -/
def execBvc (d : Byte) (s : State) : Out := branch (!s.flags.v) d s

/-- BVS, relative (R213). -/
def execBvs (d : Byte) (s : State) : Out := branch s.flags.v d s

end Sys2Proof.Machine
end

