-- ==== Sys2Proof/Machine/FlagNop.lean ====
section
/-! DEFINITION. Flag set and clear, and NOP (46_flag_nop.md R220-R227). -/

namespace Sys2Proof.Machine

/-! Each sets or clears exactly one flag, or nothing (NOP). -/

/-- SEC, implied (R220). -/
def execSec (s : State) : Out := .next (advance 1 (s.setFlags { s.flags with c := true }))

/-- CLC, implied (R221). -/
def execClc (s : State) : Out := .next (advance 1 (s.setFlags { s.flags with c := false }))

/-- SED, implied (R222). -/
def execSed (s : State) : Out := .next (advance 1 (s.setFlags { s.flags with d := true }))

/-- CLD, implied (R223). -/
def execCld (s : State) : Out := .next (advance 1 (s.setFlags { s.flags with d := false }))

/-- SEI, implied (R224). -/
def execSei (s : State) : Out := .next (advance 1 (s.setFlags { s.flags with i := true }))

/-- CLI, implied (R225). -/
def execCli (s : State) : Out := .next (advance 1 (s.setFlags { s.flags with i := false }))

/-- CLV, implied (R226). -/
def execClv (s : State) : Out := .next (advance 1 (s.setFlags { s.flags with v := false }))

/-- NOP, implied (R227). -/
def execNop (s : State) : Out := .next (advance 1 s)

end Sys2Proof.Machine
end

