-- ==== Sys2Proof/Machine/LoadStore.lean ====
section
/-! DEFINITION. Loads and stores (40_load_store.md). -/

namespace Sys2Proof.Machine

/-- LDA (R110): `A <- M; SetZN(A)`. -/
def doLda (src : Source) (s : State) : Out :=
  readOperand src s fun m t => (t.setA m).setFlags (setZN m t.flags)

/-- LDA, immediate (R110). -/
def execLdaImm (v : Byte) (s : State) : Out := doLda (.imm v) s

/-- LDA, zero page (R110). -/
def execLdaZp (o : Byte) (s : State) : Out := doLda (.mem (.zp o)) s

/-- LDA, zero page,X (R110). -/
def execLdaZpx (o : Byte) (s : State) : Out := doLda (.mem (.zpx o)) s

/-- LDA, absolute (R110). -/
def execLdaAbs (w : Addr) (s : State) : Out := doLda (.mem (.abs w)) s

/-- LDA, absolute,X (R110). -/
def execLdaAbsx (w : Addr) (s : State) : Out := doLda (.mem (.absx w)) s

/-- LDA, absolute,Y (R110). -/
def execLdaAbsy (w : Addr) (s : State) : Out := doLda (.mem (.absy w)) s

/-- LDA, (indirect,X) (R110). -/
def execLdaIndx (o : Byte) (s : State) : Out := doLda (.mem (.indx o)) s

/-- LDA, (indirect),Y (R110). -/
def execLdaIndy (o : Byte) (s : State) : Out := doLda (.mem (.indy o)) s

/-- LDX (R111): `X <- M; SetZN(X)`. -/
def doLdx (src : Source) (s : State) : Out :=
  readOperand src s fun m t => (t.setX m).setFlags (setZN m t.flags)

/-- LDX, immediate (R111). -/
def execLdxImm (v : Byte) (s : State) : Out := doLdx (.imm v) s

/-- LDX, zero page (R111). -/
def execLdxZp (o : Byte) (s : State) : Out := doLdx (.mem (.zp o)) s

/-- LDX, zero page,Y (R111). -/
def execLdxZpy (o : Byte) (s : State) : Out := doLdx (.mem (.zpy o)) s

/-- LDX, absolute (R111). -/
def execLdxAbs (w : Addr) (s : State) : Out := doLdx (.mem (.abs w)) s

/-- LDX, absolute,Y (R111). -/
def execLdxAbsy (w : Addr) (s : State) : Out := doLdx (.mem (.absy w)) s

/-- LDY (R112): `Y <- M; SetZN(Y)`. -/
def doLdy (src : Source) (s : State) : Out :=
  readOperand src s fun m t => (t.setY m).setFlags (setZN m t.flags)

/-- LDY, immediate (R112). -/
def execLdyImm (v : Byte) (s : State) : Out := doLdy (.imm v) s

/-- LDY, zero page (R112). -/
def execLdyZp (o : Byte) (s : State) : Out := doLdy (.mem (.zp o)) s

/-- LDY, zero page,X (R112). -/
def execLdyZpx (o : Byte) (s : State) : Out := doLdy (.mem (.zpx o)) s

/-- LDY, absolute (R112). -/
def execLdyAbs (w : Addr) (s : State) : Out := doLdy (.mem (.abs w)) s

/-- LDY, absolute,X (R112). -/
def execLdyAbsx (w : Addr) (s : State) : Out := doLdy (.mem (.absx w)) s

/-! The stores (R113-R115): `Store(ea, register)`; no flag changes. -/

/-- STA, zero page (R113). -/
def execStaZp (o : Byte) (s : State) : Out := writeOperand (.zp o) s.a s

/-- STA, zero page,X (R113). -/
def execStaZpx (o : Byte) (s : State) : Out := writeOperand (.zpx o) s.a s

/-- STA, absolute (R113). -/
def execStaAbs (w : Addr) (s : State) : Out := writeOperand (.abs w) s.a s

/-- STA, absolute,X (R113). -/
def execStaAbsx (w : Addr) (s : State) : Out := writeOperand (.absx w) s.a s

/-- STA, absolute,Y (R113). -/
def execStaAbsy (w : Addr) (s : State) : Out := writeOperand (.absy w) s.a s

/-- STA, (indirect,X) (R113). -/
def execStaIndx (o : Byte) (s : State) : Out := writeOperand (.indx o) s.a s

/-- STA, (indirect),Y (R113). -/
def execStaIndy (o : Byte) (s : State) : Out := writeOperand (.indy o) s.a s

/-- STX, zero page (R114). -/
def execStxZp (o : Byte) (s : State) : Out := writeOperand (.zp o) s.x s

/-- STX, zero page,Y (R114). -/
def execStxZpy (o : Byte) (s : State) : Out := writeOperand (.zpy o) s.x s

/-- STX, absolute (R114). -/
def execStxAbs (w : Addr) (s : State) : Out := writeOperand (.abs w) s.x s

/-- STY, zero page (R115). -/
def execStyZp (o : Byte) (s : State) : Out := writeOperand (.zp o) s.y s

/-- STY, zero page,X (R115). -/
def execStyZpx (o : Byte) (s : State) : Out := writeOperand (.zpx o) s.y s

/-- STY, absolute (R115). -/
def execStyAbs (w : Addr) (s : State) : Out := writeOperand (.abs w) s.y s

end Sys2Proof.Machine
end

