-- ==== Sys2Proof/Machine/Shift.lean ====
section
/-! DEFINITION. Shifts and rotates of the accumulator or of a byte of memory (42_shift.md). -/

namespace Sys2Proof.Machine

/-! Each is its ALU function applied to its target (R140-R143). -/

/-- ASL, accumulator (R140). -/
def execAslAcc (s : State) : Out := modifyTarget .acc s aluAsl

/-- ASL, zero page (R140). -/
def execAslZp (o : Byte) (s : State) : Out := modifyTarget (.mem (.zp o)) s aluAsl

/-- ASL, zero page,X (R140). -/
def execAslZpx (o : Byte) (s : State) : Out := modifyTarget (.mem (.zpx o)) s aluAsl

/-- ASL, absolute (R140). -/
def execAslAbs (w : Addr) (s : State) : Out := modifyTarget (.mem (.abs w)) s aluAsl

/-- ASL, absolute,X (R140). -/
def execAslAbsx (w : Addr) (s : State) : Out := modifyTarget (.mem (.absx w)) s aluAsl

/-- LSR, accumulator (R141). -/
def execLsrAcc (s : State) : Out := modifyTarget .acc s aluLsr

/-- LSR, zero page (R141). -/
def execLsrZp (o : Byte) (s : State) : Out := modifyTarget (.mem (.zp o)) s aluLsr

/-- LSR, zero page,X (R141). -/
def execLsrZpx (o : Byte) (s : State) : Out := modifyTarget (.mem (.zpx o)) s aluLsr

/-- LSR, absolute (R141). -/
def execLsrAbs (w : Addr) (s : State) : Out := modifyTarget (.mem (.abs w)) s aluLsr

/-- LSR, absolute,X (R141). -/
def execLsrAbsx (w : Addr) (s : State) : Out := modifyTarget (.mem (.absx w)) s aluLsr

/-- ROL, accumulator (R142). -/
def execRolAcc (s : State) : Out := modifyTarget .acc s aluRol

/-- ROL, zero page (R142). -/
def execRolZp (o : Byte) (s : State) : Out := modifyTarget (.mem (.zp o)) s aluRol

/-- ROL, zero page,X (R142). -/
def execRolZpx (o : Byte) (s : State) : Out := modifyTarget (.mem (.zpx o)) s aluRol

/-- ROL, absolute (R142). -/
def execRolAbs (w : Addr) (s : State) : Out := modifyTarget (.mem (.abs w)) s aluRol

/-- ROL, absolute,X (R142). -/
def execRolAbsx (w : Addr) (s : State) : Out := modifyTarget (.mem (.absx w)) s aluRol

/-- ROR, accumulator (R143). -/
def execRorAcc (s : State) : Out := modifyTarget .acc s aluRor

/-- ROR, zero page (R143). -/
def execRorZp (o : Byte) (s : State) : Out := modifyTarget (.mem (.zp o)) s aluRor

/-- ROR, zero page,X (R143). -/
def execRorZpx (o : Byte) (s : State) : Out := modifyTarget (.mem (.zpx o)) s aluRor

/-- ROR, absolute (R143). -/
def execRorAbs (w : Addr) (s : State) : Out := modifyTarget (.mem (.abs w)) s aluRor

/-- ROR, absolute,X (R143). -/
def execRorAbsx (w : Addr) (s : State) : Out := modifyTarget (.mem (.absx w)) s aluRor

end Sys2Proof.Machine
end

