-- ==== Sys2Proof/Machine/Transfer.lean ====
section
/-! DEFINITION. Register transfers and stack instructions (44_transfer_stack.md). -/

namespace Sys2Proof.Machine

/-! Transfers (R170-R175): all but TXS set Z and N from the value. -/

/-- TAX, implied (R170). -/
def execTax (s : State) : Out := .next (advance 1 ((s.setX s.a).setFlags (setZN s.a s.flags)))

/-- TAY, implied (R171). -/
def execTay (s : State) : Out := .next (advance 1 ((s.setY s.a).setFlags (setZN s.a s.flags)))

/-- TXA, implied (R172). -/
def execTxa (s : State) : Out := .next (advance 1 ((s.setA s.x).setFlags (setZN s.x s.flags)))

/-- TYA, implied (R173). -/
def execTya (s : State) : Out := .next (advance 1 ((s.setA s.y).setFlags (setZN s.y s.flags)))

/-- TSX, implied (R174). -/
def execTsx (s : State) : Out := .next (advance 1 ((s.setX s.sp).setFlags (setZN s.sp s.flags)))

/-- TXS, implied (R175). -/
def execTxs (s : State) : Out := .next (advance 1 (s.setSp s.x))

/-! Stack (R176-R179). -/

/-- PHA, implied (R176). -/
def execPha (s : State) : Out := .next (advance 1 (push s.a s))

/-- PLA, implied (R177). -/
def execPla (s : State) : Out :=
  .next (advance 1 (((afterPull s).setA (pulled s)).setFlags (setZN (pulled s) s.flags)))

/-- PHP, implied (R178). -/
def execPhp (s : State) : Out := .next (advance 1 (push (pushedStatus s.flags) s))

/-- PLP, implied (R179). -/
def execPlp (s : State) : Out := .next (advance 1 ((afterPull s).setFlags (unpackAll (pulled s) s.flags)))

end Sys2Proof.Machine
end

