-- ==== Sys2Proof/WellFormed.lean ====
section
/-! DEFINITION. Well-formed instructions. Every operand of `Instr` has the exact width of its field (30_encoding.md R81), so the
one check left is R86's: the opcode byte is in `IMPLEMENTED_OPCODES`. -/

namespace Sys2Proof

/-- `i` is an instruction of a machine with this configuration: its opcode byte is in `IMPLEMENTED_OPCODES` (R86). -/
def Instr.wellFormed (cfg : Config) (i : Instr) : Bool :=
  cfg.implemented.contains (opcode i)

end Sys2Proof
end

