-- ==== Sys2Proof/Machine/Fetch.lean ====
section
/-! DEFINITION. The fetch and decode part of a step, with its checks in the order of 60_exceptions.md R249, and what the common step
does after an instruction (30_encoding.md R91). -/

namespace Sys2Proof.Machine

/-- The addresses of the operand bytes of an instruction of `len` bytes at `pc`, in order, modulo 65536 (20_memory.md R64). -/
def operandAddrs (pc : Addr) (len : Nat) : List Addr :=
  (List.range (len - 1)).map fun k => pc + BitVec.ofNat 16 (k + 1)

/-- The bytes of an instruction of `len` bytes at `pc` (R64): fetching has no side effect. -/
def fetchBytes (m : Memory) (pc : Addr) (len : Nat) : List Byte :=
  (pc :: operandAddrs pc len).map m.read

/-- The length of the instruction with this opcode byte, none if the byte is unassigned or not implemented (R86, R87, R88; log 9). -/
def implementedLength (cfg : Config) (op : Byte) : Option Nat :=
  if cfg.implemented.contains op then opLength op else none

/-- Fetch and decode the instruction at `PC` (R91), with the checks of R249 in their order: the opcode's address, the opcode, the
operand bytes' addresses. -/
def fetchInstr (s : State) : Except Fault Instr :=
  if intercepted s.cfg s.pc then .error (.unmodelled .deviceFetch s.pc)
  else
    let op := s.mem.read s.pc
    match implementedLength s.cfg op with
    | none => .error (.undefinedOpcode op s.pc)
    | some len =>
      match (operandAddrs s.pc len).find? (intercepted s.cfg) with
      | some b => .error (.unmodelled .deviceFetch b)
      | none =>
        match decode (fetchBytes s.mem s.pc len) with
        | .ok (i, _) => .ok i
        | .error _ => .error (.undefinedOpcode op s.pc)

/-- A completed instruction counts (10_state.md R33; log 16). -/
def retire (s : State) : State := s.setIcount (s.icount + 1)

/-- Bytes placed in memory from `a` on, modulo 65536, as an image places them (70_reset_and_hazards.md R270). -/
def placeBytes : List Byte → Addr → Memory → Memory
  | [], _, m => m
  | b :: rest, a, m => placeBytes rest (a + 1) (m.write a b)

end Sys2Proof.Machine
end

