-- ==== Sys2Proof/Machine/Step.lean ====
section
/-! DEFINITION. One step of the machine (30_encoding.md R91). -/

namespace Sys2Proof.Machine

/-- One step: fetch and decode, run the instruction, count it. A stop leaves the state as it was (R93); whether a completed step
is a `Breakpoint` or a `Continue` is read off its next state (60_exceptions.md R246; log 7). -/
def step (s : State) : Host.Outcome State Fault Refusal :=
  match fetchInstr s with
  | .error f => .fault f
  | .ok i =>
    match exec i s with
    | .next t => .next (retire t)
    | .fault f => .fault f
    | .refused r => .refused r

/-- `s` with a word of the opcode table placed at its program counter, which stands for the image that brings a program into the
machine (log 11). -/
def State.withFetchWord (s : State) (nbits w : Nat) : State :=
  s.setMem (placeBytes (tableBytes nbits w) s.pc s.mem)

end Sys2Proof.Machine
end

