-- ==== Sys2Proof/Machine/Construct.lean ====
section
/-! DEFINITION. Construction with its checks (00_scope.md R7, 70_reset_and_hazards.md R270) and the reset of R272. -/

namespace Sys2Proof.Machine

/-- `ConfigurationError`: the combinations that R7 refuses. It is no outcome of a step (60_exceptions.md R243). -/
inductive ConfigurationError where
  /-- The image is longer than `MEM_SIZE`. -/
  | imageTooLong
  /-- `SOFT_SWITCHES` lacks 0xC050 -> `graphics`. -/
  | graphicsSwitchMissing
  /-- `SOFT_SWITCHES` names one address twice. -/
  | switchNamedTwice
  /-- `KBD_STROBE_LO > KBD_STROBE_HI`. -/
  | strobeInverted
  /-- The video windows overlap. -/
  | videoOverlap
  /-- An intercepted address lies in 0x0000-0x01FF or in 0xFFFC-0xFFFF. -/
  | interceptedReserved
deriving DecidableEq, Repr

/-- Page 0, the stack page and the vectors, which no intercepted address may lie in (R7). -/
def reservedAddr (a : Addr) : Bool := decide (a.toNat ≤ 0x01FF) || decide (0xFFFC ≤ a.toNat)

/-- Some address lies in both windows. -/
def windowsOverlap (v w : Window) : Bool :=
  decide (max v.lo.toNat w.lo.toNat ≤ min v.hi.toNat w.hi.toNat)

/-- No address stands twice in a list. -/
def namedOnce : List Addr → Bool
  | [] => true
  | a :: rest => !rest.contains a && namedOnce rest

/-- Some intercepted address is reserved: a soft switch, or an address of the strobe window, which is not inverted when this is
asked. -/
def interceptsReserved (cfg : Config) : Bool :=
  (cfg.softSwitches.any fun e => reservedAddr e.1) || decide (cfg.strobeLo.toNat ≤ 0x01FF) || decide (0xFFFC ≤ cfg.strobeHi.toNat)

/-- What R7 refuses in a configuration and an image of this length, if anything (log 20). -/
def configProblem (cfg : Config) (imageLength : Nat) : Option ConfigurationError :=
  if imageLength > memSize then some .imageTooLong
  else if !cfg.softSwitches.contains (graphicsAddr, .graphics) then some .graphicsSwitchMissing
  else if !namedOnce (cfg.softSwitches.map fun e => e.1) then some .switchNamedTwice
  else if cfg.strobeHi.toNat < cfg.strobeLo.toNat then some .strobeInverted
  else if windowsOverlap cfg.video1 cfg.video2 then some .videoOverlap
  else if interceptsReserved cfg then some .interceptedReserved
  else none

/-- A configuration that construction accepts (R7). -/
def configOk (cfg : Config) : Bool := (configProblem cfg 0).isNone

/-- The machine as R270 builds it, without the checks. `dirty` is the first draw (log 4). -/
def built (image : List Byte) (cfg : Config) (bp : Option Nat) : State :=
  let mem := Memory.loadFrom 0 image
  { a := 0, x := 0, y := 0, sp := 0xFF, pc := mem.read16 resetVector, flags := Flags.cleared, sw := Switches.cleared,
    dirty := Config.freeBit 0, icount := 0, breakpoint := bp, mem := mem, cfg := cfg, draws := 1 }

/-- `construct(image, config)` (R270): `ConfigurationError` and no machine, or the machine. `bp` is the `BREAKPOINT` that the host
may supply (10_state.md R34; log 19). -/
def construct (image : List Byte) (cfg : Config) (bp : Option Nat) : Except ConfigurationError State :=
  match configProblem cfg image.length with
  | some e => .error e
  | none => .ok (built image cfg bp)

/-- Reset after construction (R272): the registers, the flags and `icount` as construction leaves them, `PC` from the reset vector;
memory, the soft switches and `dirty` are unchanged, and so are `BREAKPOINT` and the draws (log 18). -/
def resetRegisters (s : State) : State :=
  { s with a := 0, x := 0, y := 0, sp := 0xFF, flags := Flags.cleared, icount := 0, pc := s.mem.read16 resetVector }

end Sys2Proof.Machine
end

