-- ==== Sys2Proof/Machine/HostApi.lean ====
section
/-! DEFINITION. What the host sees and does (60_exceptions.md R240, R246, R259, R261). The host acts only between steps
(20_memory.md R71). -/

namespace Sys2Proof.Machine

/-- The reason of a `Halted` outcome (R240). -/
inductive HaltReason where
  | undefinedOpcode (byte : Byte) (addr : Addr)
  | addressOutOfRange (addr : Nat)
deriving DecidableEq, Repr

/-- The outcome of a step as the host is told it (R240). -/
inductive StepOutcome where
  | continued
  | breakpoint
  | halted (r : HaltReason)
  | unmodelled (r : UnmodelledReason) (addr : Addr)
  /-- The model's own refusal; no instruction gives it. -/
  | refused (r : Refusal)
deriving DecidableEq, Repr

/-- The outcome that stands for a fault (R240). -/
def Fault.outcome : Fault → StepOutcome
  | .undefinedOpcode byte addr => .halted (.undefinedOpcode byte addr)
  | .addressOutOfRange addr => .halted (.addressOutOfRange addr)
  | .unmodelled r addr => .unmodelled r addr

/-- The outcome of a completed instruction, from its next state (R246): `icount` has been incremented already. -/
def completed (t : State) : StepOutcome :=
  if t.breakpoint = some t.icount then .breakpoint else .continued

/-- `step(verbose)` (R259): the outcome and the state after it, which is the state before it unless the instruction completed
(R240). `verbose` has no effect on the state (decision D35). -/
def stepApi (_verbose : Bool) (s : State) : StepOutcome × State :=
  match step s with
  | .next t => (completed t, t)
  | .fault f => (f.outcome, s)
  | .refused r => (.refused r, s)

/-- `run_for` (R259): at most `n` steps, stopping at the first outcome that is not `Continue`. How many steps a time stands for is
the host's (log 17). DESIGN CHOICE: no step at all answers `Continue`, of which the spec says nothing (log 22). -/
def runSteps : Nat → State → StepOutcome × State
  | 0, s => (.continued, s)
  | n + 1, s =>
    match stepApi false s with
    | (.continued, t) => runSteps n t
    | other => other

/-- What the host may do to the machine between two steps (R259, and the reset of R272); when it does is its own affair
(log 15). -/
inductive HostAction where
  /-- A key code is injected. -/
  | injectKey (code : Byte)
  /-- The compositor has rendered and clears `dirty`. -/
  | clearDirty
  /-- `BREAKPOINT` is set or cleared. -/
  | setBreakpoint (bp : Option Nat)
  /-- The registers are reset. -/
  | reset
deriving DecidableEq, Repr

/-- The effect of a host action. A key goes to `KBD_DATA` with bit 7 set, whatever `ROM_BOUNDARY` is (decision D34). -/
def hostAct (act : HostAction) (s : State) : State :=
  match act with
  | .injectKey code => s.setMem (s.mem.write kbdData (code ||| 0x80))
  | .clearDirty => s.setDirty false
  | .setBreakpoint bp => s.setBreakpoint bp
  | .reset => resetRegisters s

/-- The inspection snapshot (R259): a read-only copy. -/
structure Snapshot where
  a : Byte
  x : Byte
  y : Byte
  sp : Byte
  pc : Addr
  flags : Flags
deriving DecidableEq, Repr

/-- The snapshot of the registers and flags. -/
def snapshot (s : State) : Snapshot := ⟨s.a, s.x, s.y, s.sp, s.pc, s.flags⟩

/-- The memory dump of `n` bytes from `a` on (R259, R261): no side effect, no soft-switch toggle. DESIGN CHOICE: a range that runs past
0xFFFF goes on from 0x0000; the spec says only "any memory range" (log 21). -/
def memoryDump (s : State) (a : Addr) (n : Nat) : List Byte :=
  (List.range n).map fun k => s.mem.read (a + BitVec.ofNat 16 k)

end Sys2Proof.Machine
end

