-- ==== Sys2Proof/Safety.lean ====
section
/-! DEFINITION. The terms that statements use: the invariant of a machine that construction accepts, how encodings are listed, and
which addresses an instruction stores to. -/

namespace Sys2Proof.Machine

/-- The invariant: memory is in its canonical form, and the configuration is one that construction accepts (00_scope.md R7). -/
def State.Inv (s : State) : Prop := s.mem.wf = true ∧ configOk s.cfg = true

/-- The instructions of a mnemonic are exactly the rows of this list, opcode byte and format (30_encoding.md R81, R85). -/
def EncodedAs (mn : Mnemonic) (rows : List (Byte × Mode)) : Prop :=
  ∀ i : Instr, i.mnemonic = mn ↔ (opcode i, i.operand.mode) ∈ rows

/-- The address after an instruction at `PC`: `(op_addr + len) % 65536` (10_state.md R25). -/
def nextPc (i : Instr) (s : State) : Addr := s.pc + BitVec.ofNat 16 i.operand.mode.length

/-- The stack byte `k` places below the one that `SP` addresses, inside the stack page (20_memory.md R63). -/
def stackSlot (s : State) (k : Nat) : Addr := 0x0100 + zext (s.sp - BitVec.ofNat 8 k)

/-- The stack byte `k` places above the one that `SP` addresses, inside the stack page (20_memory.md R63). -/
def stackAbove (s : State) (k : Nat) : Addr := 0x0100 + zext (s.sp + BitVec.ofNat 8 k)

/-- The addresses that an instruction stores to, in the order it stores: the effective address of a store or of a
read-modify-write instruction (40_load_store.md, 42_shift.md, R153, R154), the stack bytes of a push (44_transfer_stack.md,
45_control.md). -/
def storedAddrs (i : Instr) (s : State) : List Addr :=
  match i.mnemonic, i.operand with
  | .STA, .memory m | .STX, .memory m | .STY, .memory m | .INC, .memory m | .DEC, .memory m
  | .ASL, .memory m | .LSR, .memory m | .ROL, .memory m | .ROR, .memory m => [effectiveAddr m s]
  | .PHA, _ | .PHP, _ => [stackSlot s 0]
  | .JSR, _ => [stackSlot s 0, stackSlot s 1]
  | .BRK, _ => [stackSlot s 0, stackSlot s 1, stackSlot s 2]
  | _, _ => []

/-- The state with another interrupt-disable flag. -/
def withI (v : Bool) (s : State) : State := s.setFlags { s.flags with i := v }

/-- The state with another decimal flag. -/
def withD (v : Bool) (s : State) : State := s.setFlags { s.flags with d := v }

end Sys2Proof.Machine
end

