-- ==== Sys2Proof/Certificates/Slice0/Obligations.lean ====
section
/-! DEFINITION. The statements for the provers. Each cites the rules of spec/ that it formalises; every one quantifies over all
states, and so over every configuration (log 1). Helper terms stand in Sys2Proof/Safety.lean. -/

open Sys2Proof Sys2Proof.Machine

/-- Words written out from the opcode map decode to the instructions they stand for (30_encoding R81, 30_encoding R85). -/
def Obligations.SampleWordsDecode : Prop :=
  decode [0xA5, 0x08, 0x65] = .ok (.ldaZp 0x08, [0x65]) ∧
  decode [0x9D, 0x34, 0x12] = .ok (.staAbsx 0x1234, []) ∧
  decode [0x71, 0x40] = .ok (.adcIndy 0x40, []) ∧
  decode [0x6A, 0xFF] = .ok (.rorAcc, [0xFF]) ∧
  decode [0xDE, 0x01, 0x20] = .ok (.decAbsx 0x2001, []) ∧
  decode [0x96, 0xF0] = .ok (.stxZpy 0xF0, []) ∧
  decode [0x6C, 0xFF, 0x02] = .ok (.jmpInd 0x02FF, []) ∧
  decode [0x00, 0xEA] = .ok (.brk 0xEA, []) ∧
  decode [0xAA] = .ok (.tax, []) ∧
  decode [0x48, 0x68] = .ok (.pha, [0x68]) ∧
  decode [0xD0, 0xFB] = .ok (.bne 0xFB, []) ∧
  decode [0x38] = .ok (.sec, [])

/-- Decoding the bytes of any instruction gives it back, and the bytes after it (30_encoding R80, 30_encoding R82, 30_encoding R85, 30_encoding R88). -/
def Obligations.EncodeThenDecodeGivesBack : Prop :=
  ∀ (i : Instr) (rest : List Byte), decode (encode i ++ rest) = .ok (i, rest)

/-- Whatever the decoder accepts is exactly the encoding of the instruction it answers (30_encoding R80, 30_encoding R82, 30_encoding R85, 30_encoding R88). -/
def Obligations.DecodedBytesEncodeBack : Prop :=
  ∀ (bytes rest : List Byte) (i : Instr), decode bytes = .ok (i, rest) → encode i ++ rest = bytes

/-- The opcode byte alone gives the length of an instruction, and it is the length of its format (30_encoding R80, 30_encoding R81, 30_encoding R88). -/
def Obligations.LengthFromOpcodeAlone : Prop :=
  ∀ i : Instr, opLength (opcode i) = some (encode i).length ∧ (encode i).length = i.operand.mode.length ∧
    1 ≤ (encode i).length ∧ (encode i).length ≤ 3

/-- An opcode byte that is unassigned or not implemented ends the step with UndefinedOpcode and changes nothing (R87, R241). -/
def Obligations.UndefinedOpcodeHalts : Prop :=
  ((List.range 256).filter fun k => (opMap (BitVec.ofNat 8 k)).isNone).length = 105 ∧
  ∀ s : State, intercepted s.cfg s.pc = false →
    let op := s.mem.read s.pc
    let isUndefined := (∀ i : Instr, opcode i ≠ op) ∨ op ∉ s.cfg.implemented
    (isUndefined → step s = .fault (.undefinedOpcode op s.pc) ∧
      ∀ verbose, stepApi verbose s = (.halted (.undefinedOpcode op s.pc), s)) ∧
    (∀ byte addr, step s = .fault (.undefinedOpcode byte addr) → byte = op ∧ addr = s.pc ∧ isUndefined)

/-- A step runs the instruction that the bytes at PC decode to, and counts it if it completes (30_encoding R91, 20_memory R64). -/
def Obligations.StepRunsDecodedInstruction : Prop :=
  ∀ (s : State) (i : Instr) (rest : List Byte),
    decode [s.mem.read s.pc, s.mem.read (s.pc + 1), s.mem.read (s.pc + 2)] = .ok (i, rest) →
    i.wellFormed s.cfg = true →
    (∀ k, k < i.operand.mode.length → intercepted s.cfg (s.pc + BitVec.ofNat 16 k) = false) →
    step s = match exec i s with
      | .next t => .next { t with icount := t.icount + 1 }
      | .fault f => .fault f
      | .refused r => .refused r

/-- The checks of a step run in the order of R249, and a step that passes them completes; (5) reports the address of R245 (log 6) (60_exceptions R249, 60_exceptions R245, 45_control R191, 20_memory R62). -/
def Obligations.FetchChecksInOrder : Prop :=
  ∀ s : State,
    let op := s.mem.read s.pc
    (intercepted s.cfg s.pc = true → step s = .fault (.unmodelled .deviceFetch s.pc)) ∧
    (intercepted s.cfg s.pc = false →
      ((∀ i : Instr, opcode i = op → op ∉ s.cfg.implemented) → step s = .fault (.undefinedOpcode op s.pc)) ∧
      (∀ i : Instr, opcode i = op → op ∈ s.cfg.implemented →
        (1 < i.operand.mode.length → intercepted s.cfg (s.pc + 1) = true →
          step s = .fault (.unmodelled .deviceFetch (s.pc + 1))) ∧
        (i.operand.mode.length = 3 → intercepted s.cfg (s.pc + 1) = false → intercepted s.cfg (s.pc + 2) = true →
          step s = .fault (.unmodelled .deviceFetch (s.pc + 2))) ∧
        ((∀ k, k < i.operand.mode.length → intercepted s.cfg (s.pc + BitVec.ofNat 16 k) = false) →
          let p := pair (s.mem.read (s.pc + 2)) (s.mem.read (s.pc + 1))
          let badPointer := i.operand.mode = .ind ∧
            (intercepted s.cfg p = true ∨ intercepted s.cfg (pointerHigh s.cfg p) = true)
          (badPointer → step s =
            .fault (.unmodelled .deviceFetch (if intercepted s.cfg p = true then p else pointerHigh s.cfg p))) ∧
          (¬ badPointer → ∃ t, step s = .next t)))) ∧
    (∀ a, step s ≠ .fault (.addressOutOfRange a))

/-- Every instruction answers a next state on every state, but for a JMP indirect through an intercepted pointer (30_encoding R94, 30_encoding R91, 45_control R191). -/
def Obligations.EveryInstructionCompletes : Prop :=
  ∀ (i : Instr) (s : State),
    (∀ p, i.operand = .indirect p → intercepted s.cfg p = false ∧ intercepted s.cfg (pointerHigh s.cfg p) = false) →
    ∃ t, exec i s = .next t

/-- The state after reset meets the invariant (70_reset_and_hazards R270, 00_scope R7). -/
def Obligations.ResetMeetsInvariant : Prop := State.reset.Inv

/-- Every step keeps memory in canonical form and the configuration a legal one (20_memory R50, 00_scope R7, 10_state R37). -/
def Obligations.StepKeepsInvariant : Prop :=
  ∀ s t : State, s.Inv → step s = .next t → t.Inv

/-- Every action of the host between steps keeps the invariant, and with it a run of any length (60_exceptions R259, 20_memory R71). -/
def Obligations.HostActionsKeepInvariant : Prop :=
  (∀ (act : HostAction) (s : State), s.Inv → (hostAct act s).Inv) ∧
  (∀ (n : Nat) (s : State), s.Inv → (runSteps n s).2.Inv)

/-- Construction with an accepted image and configuration gives the state of R270 (R270, R271). -/
def Obligations.ConstructionGivesInitialState : Prop :=
  ∀ (image : List Byte) (cfg : Config) (bp : Option Nat), configProblem cfg image.length = none →
    ∃ s, construct image cfg bp = .ok s ∧ s.Inv ∧
      (s.a = 0 ∧ s.x = 0 ∧ s.y = 0 ∧ s.sp = 0xFF ∧ s.icount = 0 ∧ s.cfg = cfg) ∧
      s.flags = ⟨false, false, false, false, false, false, false⟩ ∧ s.sw = ⟨false, false, false, false⟩ ∧
      (∀ a : Addr, s.mem.read a = image.getD a.toNat 0) ∧
      s.pc = pair (image.getD 0xFFFD 0) (image.getD 0xFFFC 0) ∧
      (image.length ≤ 0xFFFC → s.pc = 0)

/-- Construction is refused exactly for the combinations that R7 lists (R7, R243). -/
def Obligations.ConstructionRefusesExactlyBadConfigurations : Prop :=
  ∀ (image : List Byte) (cfg : Config) (bp : Option Nat),
    (∃ e, construct image cfg bp = .error e) ↔
      (image.length > 65536 ∨ ((0xC050, .graphics) : Addr × Switch) ∉ cfg.softSwitches ∨
        ¬ (cfg.softSwitches.map Prod.fst).Nodup ∨ cfg.strobeHi.toNat < cfg.strobeLo.toNat ∨
        (∃ a, inWindow cfg.video1 a = true ∧ inWindow cfg.video2 a = true) ∨
        (∃ a, intercepted cfg a = true ∧ (a.toNat ≤ 0x01FF ∨ 0xFFFC ≤ a.toNat)))

/-- State.reset is the machine that construction gives for an empty image (10_state R37, 70_reset_and_hazards R270, 70_reset_and_hazards R271). -/
def Obligations.ResetStateIsConstructed : Prop :=
  construct [] State.reset.cfg none = .ok State.reset ∧ State.reset.pc = 0x0000 ∧ State.reset.sp = 0xFF ∧
  ∀ a, State.reset.mem.read a = 0

/-- A reset after construction sets the registers, flags and icount, loads PC from the reset vector, and leaves memory, the soft switches and dirty (R272). -/
def Obligations.RegisterResetKeepsMemory : Prop :=
  ∀ s : State, let t := hostAct .reset s
    (t.a = 0 ∧ t.x = 0 ∧ t.y = 0 ∧ t.sp = 0xFF ∧ t.icount = 0) ∧
    t.flags = ⟨false, false, false, false, false, false, false⟩ ∧
    t.pc = pair (s.mem.read 0xFFFD) (s.mem.read 0xFFFC) ∧ t.mem = s.mem ∧ t.sw = s.sw ∧ t.dirty = s.dirty

/-- A key injection writes the code with bit 7 set into 0xC000, past the ROM boundary, and nothing else (60_exceptions R259, 10_state R32, 20_memory R71). -/
def Obligations.KeyInjectionWritesKeyboardByte : Prop :=
  (∀ (code : Byte) (s : State), let t := hostAct (.injectKey code) s
    t = { s with mem := t.mem } ∧ ∀ a, t.mem.read a = if a = 0xC000 then code ||| 0x80 else s.mem.read a) ∧
  (∀ s : State, (hostAct (.injectKey 0x0D) s).mem.read 0xC000 = 0x8D) ∧
  (∀ s : State, hostAct .clearDirty s = { s with dirty := false }) ∧
  (∀ (bp : Option Nat) (s : State), hostAct (.setBreakpoint bp) s = { s with breakpoint := bp })

/-- A completed step returns Breakpoint exactly when BREAKPOINT is its count, and the next one continues (R246). -/
def Obligations.BreakpointAfterCountedInstruction : Prop :=
  ∀ (s t : State) (verbose : Bool), step s = .next t →
    (s.breakpoint = some (s.icount + 1) → stepApi verbose s = (.breakpoint, t)) ∧
    (s.breakpoint ≠ some (s.icount + 1) → stepApi verbose s = (.continued, t)) ∧
    t.icount = s.icount + 1 ∧ t.breakpoint = s.breakpoint ∧
    (∀ u, t.breakpoint = some t.icount → step t = .next u → stepApi verbose t = (.continued, u))

/-- A step that ends with any outcome but Continue and Breakpoint leaves the whole state as it found it, and repeats (60_exceptions R240, 60_exceptions R251, 60_exceptions R253, 30_encoding R93). -/
def Obligations.StoppedStepLeavesState : Prop :=
  ∀ (s : State) (v w : Bool), (stepApi v s).1 ≠ .continued → (stepApi v s).1 ≠ .breakpoint →
    (stepApi v s).2 = s ∧ stepApi w (stepApi v s).2 = stepApi v s ∧ ∀ r, (stepApi v s).1 ≠ .refused r

/-- An access inverts exactly the switch mapped at its address and clears bit 7 of 0xC000 from the strobe window (R58, R59). -/
def Obligations.AccessTogglesAndClears : Prop :=
  ∀ (ea : Addr) (s : State), configOk s.cfg = true →
    let t := access ea s
    let hit := fun w : Switch => decide ((ea, w) ∈ s.cfg.softSwitches)
    t = { s with sw := t.sw, mem := t.mem } ∧
    t.sw = ⟨s.sw.graphics ^^ hit .graphics, s.sw.split ^^ hit .split, s.sw.page2 ^^ hit .page2, s.sw.hires ^^ hit .hires⟩ ∧
    ∀ a, t.mem.read a =
      if a = 0xC000 ∧ s.cfg.strobeLo.toNat ≤ ea.toNat ∧ ea.toNat ≤ s.cfg.strobeHi.toNat
      then s.mem.read 0xC000 &&& 0x7F else s.mem.read a

/-- Each memory-mode instruction accesses its effective address once; every other instruction never does (R57). -/
def Obligations.MemoryModesAccessOnce : Prop :=
  ∀ (i : Instr) (s t : State), exec i s = .next t →
    (∀ m, i.operand = .memory m → t.sw = (access (effectiveAddr m s) s).sw ∧
      ∀ a, a ∉ storedAddrs i s → t.mem.read a = (access (effectiveAddr m s) s).mem.read a) ∧
    ((∀ m, i.operand ≠ .memory m) → t.sw = s.sw ∧ ∀ a, a ∉ storedAddrs i s → t.mem.read a = s.mem.read a)

/-- An operand read gives the backing byte, or a draw in the one case where the strobe clear hits the same byte (R60). -/
def Obligations.OperandReadIsBackingByte : Prop :=
  ∀ (ea : Addr) (s : State),
    let race := ea = 0xC000 ∧ s.cfg.strobeLo.toNat ≤ 0xC000 ∧ 0xC000 ≤ s.cfg.strobeHi.toNat
    (¬ race → loaded ea s = s.mem.read ea) ∧
    (race → (loaded ea s = s.mem.read 0xC000 ∨ loaded ea s = s.mem.read 0xC000 &&& 0x7F) ∧
      (afterLoad ea s).mem.read 0xC000 = s.mem.read 0xC000 &&& 0x7F) ∧
    afterLoad ea s = { access ea s with draws := (afterLoad ea s).draws }

/-- A store writes its byte below ROM_BOUNDARY only, and sets dirty in a video window either way (R61). -/
def Obligations.StoreRespectsRomBoundary : Prop :=
  ∀ (a : Addr) (v : Byte) (s : State),
    let t := store a v s
    let video := (s.cfg.video1.lo.toNat ≤ a.toNat ∧ a.toNat ≤ s.cfg.video1.hi.toNat) ∨
      (s.cfg.video2.lo.toNat ≤ a.toNat ∧ a.toNat ≤ s.cfg.video2.hi.toNat)
    t = { s with dirty := t.dirty, mem := t.mem } ∧
    (t.dirty = true ↔ s.dirty = true ∨ video) ∧
    ∀ b, t.mem.read b = if b = a ∧ a.toNat < s.cfg.romBoundary.val then v else s.mem.read b

/-- A push stores at 0x0100 + SP and then decrements; a pull increments and then reads; both wrap inside the page (R63). -/
def Obligations.StackPrimitives : Prop :=
  ∀ (v : Byte) (s : State),
    let top : Addr := BitVec.ofNat 16 (0x0100 + s.sp.toNat)
    push v s = { store top v s with sp := BitVec.ofNat 8 (s.sp.toNat + 255) } ∧
    pulled s = s.mem.read (BitVec.ofNat 16 (0x0100 + (s.sp.toNat + 1) % 256)) ∧
    afterPull s = { s with sp := BitVec.ofNat 8 (s.sp.toNat + 1) } ∧
    (top.toNat < s.cfg.romBoundary.val → pulled (push v s) = v) ∧ (afterPull (push v s)).sp = s.sp

/-- Each row of the resolver gives the effective address and length that R83 writes (R83). -/
def Obligations.ResolverRows : Prop :=
  ∀ (o : Byte) (w : Addr) (s : State),
    let byteAt := fun k : Nat => (s.mem.read (BitVec.ofNat 16 k)).toNat
    let ea := fun m : MemOperand => (effectiveAddr m s).toNat
    ea (.zp o) = o.toNat ∧ ea (.zpx o) = (o.toNat + s.x.toNat) % 256 ∧ ea (.zpy o) = (o.toNat + s.y.toNat) % 256 ∧
    ea (.abs w) = w.toNat ∧ ea (.absx w) = (w.toNat + s.x.toNat) % 65536 ∧
    ea (.absy w) = (w.toNat + s.y.toNat) % 65536 ∧
    (let p := (o.toNat + s.x.toNat) % 256
     ea (.indx o) = byteAt ((p + 1) % 256) * 256 + byteAt p) ∧
    ea (.indy o) = (byteAt ((o.toNat + 1) % 256) * 256 + byteAt o.toNat + s.y.toNat) % 65536 ∧
    (immediateAddr s).toNat = (s.pc.toNat + 1) % 65536 ∧
    ([Mode.imm, .zp, .zpx, .zpy, .indx, .indy].map Mode.length = [2, 2, 2, 2, 2, 2]) ∧
    ([Mode.abs, .absx, .absy].map Mode.length = [3, 3, 3])

/-- A byte of memory reads as last written, no other byte changes, and memories that read alike are one memory (20_memory R50). -/
def Obligations.MemoryReadsBackWrites : Prop :=
  (∀ (m : Memory) (a b : Addr) (v : Byte), (m.write a v).read b = if b = a then v else m.read b) ∧
  (∀ (m : Memory) (a : Addr) (v : Byte), m.wf = true → (m.write a v).wf = true) ∧
  (∀ m m' : Memory, m.wf = true → m'.wf = true → (∀ a, m.read a = m'.read a) → m = m')

/-- What a step fetches depends on the configuration, PC and the three bytes from PC on as memory holds them, and on nothing else (20_memory R64, 20_memory R69, 70_reset_and_hazards R275, 30_encoding R88). -/
def Obligations.FetchSeesMemoryAsItStands : Prop :=
  ∀ s t : State, s.cfg = t.cfg → s.pc = t.pc →
    (∀ k, k < 3 → s.mem.read (s.pc + BitVec.ofNat 16 k) = t.mem.read (s.pc + BitVec.ofNat 16 k)) →
    fetchInstr s = fetchInstr t

/-- No step changes a byte at or above ROM_BOUNDARY, but for the strobe clear of 0xC000 (R56). -/
def Obligations.RomNeverWritten : Prop :=
  ∀ (s t : State) (a : Addr), step s = .next t → s.cfg.romBoundary.val ≤ a.toNat →
    t.mem.read a = s.mem.read a ∨
    (a = 0xC000 ∧ t.mem.read a = s.mem.read a &&& 0x7F ∧
      ∃ i m, fetchInstr s = .ok i ∧ i.operand = .memory m ∧ inStrobe s.cfg (effectiveAddr m s) = true)

/-- An instruction changes no byte but those it stores to, and the keyboard byte by a strobe clear (20_memory R54, 20_memory R61, 20_memory R63, 40_load_store R113). -/
def Obligations.StoredBytesFrame : Prop :=
  ∀ (i : Instr) (s t : State) (a : Addr), exec i s = .next t → a ∉ storedAddrs i s →
    (a ≠ 0xC000 ∨ (∀ m, i.operand = .memory m → inStrobe s.cfg (effectiveAddr m s) = false)) →
    t.mem.read a = s.mem.read a

/-- Only the instructions that R20 to R23 list change A, X, Y and SP (R20, R21, R22, R23). -/
def Obligations.WritersOfRegisters : Prop :=
  (∀ (i : Instr) (s t : State), exec i s = .next t →
    (t.a ≠ s.a → i.mnemonic ∈ [Mnemonic.LDA, .ADC, .SBC, .AND, .ORA, .EOR, .TXA, .TYA, .PLA] ∨
      (i.mnemonic ∈ [Mnemonic.ASL, .LSR, .ROL, .ROR] ∧ i.operand = .accumulator)) ∧
    (t.x ≠ s.x → i.mnemonic ∈ [Mnemonic.LDX, .INX, .DEX, .TAX, .TSX]) ∧
    (t.y ≠ s.y → i.mnemonic ∈ [Mnemonic.LDY, .INY, .DEY, .TAY]) ∧
    (t.sp ≠ s.sp → i.mnemonic ∈ [Mnemonic.TXS, .PHA, .PHP, .PLA, .PLP, .JSR, .RTS, .BRK, .RTI])) ∧
  (∀ (image : List Byte) (cfg : Config) (bp : Option Nat) (s : State), construct image cfg bp = .ok s →
    s.a = 0 ∧ s.x = 0 ∧ s.y = 0 ∧ s.sp = 0xFF) ∧
  (∀ sp : Byte, (stackAddr sp).toNat = 0x0100 + sp.toNat)

/-- Only the instructions that the table of R27 lists change each flag (10_state R27). -/
def Obligations.WritersOfFlags : Prop :=
  ∀ (i : Instr) (s t : State), exec i s = .next t →
    (t.flags.c ≠ s.flags.c → i.mnemonic ∈
      [Mnemonic.ADC, .SBC, .ASL, .LSR, .ROL, .ROR, .CMP, .CPX, .CPY, .SEC, .CLC, .PLP, .RTI]) ∧
    (t.flags.z ≠ s.flags.z ∨ t.flags.n ≠ s.flags.n → i.mnemonic ∈
      [Mnemonic.LDA, .LDX, .LDY, .ADC, .SBC, .AND, .ORA, .EOR, .ASL, .LSR, .ROL, .ROR, .CMP, .CPX] ++
      [Mnemonic.CPY, .INC, .DEC, .INX, .INY, .DEX, .DEY, .BIT, .TAX, .TAY, .TXA, .TYA, .TSX, .PLA, .PLP, .RTI]) ∧
    (t.flags.i ≠ s.flags.i → i.mnemonic ∈ [Mnemonic.SEI, .CLI, .BRK, .PLP, .RTI]) ∧
    (t.flags.d ≠ s.flags.d → i.mnemonic ∈ [Mnemonic.SED, .CLD, .PLP, .RTI]) ∧
    (t.flags.b ≠ s.flags.b → i.mnemonic = .PLP) ∧
    (t.flags.v ≠ s.flags.v → i.mnemonic ∈ [Mnemonic.BIT, .CLV, .PLP, .RTI] ∨
      (i.mnemonic ∈ [Mnemonic.ADC, .SBC] ∧ s.flags.d = false))

/-- PC advances by the length of the instruction unless the instruction is a control transfer (10_state R25, 30_encoding R91). -/
def Obligations.PcAdvancesByLength : Prop :=
  ∀ (i : Instr) (s t : State), exec i s = .next t →
    i.mnemonic ∉ [Mnemonic.JMP, .JSR, .RTS, .BRK, .RTI, .BCC, .BCS, .BEQ, .BMI, .BNE, .BPL, .BVC, .BVS] →
    t.pc.toNat = (s.pc.toNat + i.operand.mode.length) % 65536

/-- A step never clears dirty, and sets it exactly when it stores into a video window (10_state R31, 20_memory R61). -/
def Obligations.DirtySetByVideoStoresOnly : Prop :=
  ∀ (i : Instr) (s t : State), exec i s = .next t → t.dirty = (s.dirty || (storedAddrs i s).any (inVideo s.cfg))

/-- No instruction touches icount, BREAKPOINT or the configuration; a completed step adds one to icount; draws, the model's own field (log 3), never falls (10_state R33, 10_state R34, 10_state R37, 10_state R38). -/
def Obligations.HostStateUntouchedByInstructions : Prop :=
  (∀ (i : Instr) (s t : State), exec i s = .next t →
    t.icount = s.icount ∧ t.breakpoint = s.breakpoint ∧ t.cfg = s.cfg ∧ s.draws ≤ t.draws) ∧
  (∀ s t : State, step s = .next t →
    t.icount = s.icount + 1 ∧ t.breakpoint = s.breakpoint ∧ t.cfg = s.cfg ∧ s.draws ≤ t.draws)

/-- The interrupt-disable flag decides nothing: it reaches only the pushed status byte (R248). -/
def Obligations.InterruptDisableMasksNothing : Prop :=
  ∀ (s : State) (v : Bool), fetchInstr (withI v s) = fetchInstr s ∧
    ∀ i : Instr,
      (i.mnemonic ∉ [Mnemonic.SEI, .CLI, .BRK, .PLP, .RTI, .PHP] →
        (∀ t, exec i s = .next t → exec i (withI v s) = .next (withI v t)) ∧
        (∀ f, exec i s = .fault f → exec i (withI v s) = .fault f)) ∧
      (i.mnemonic ∈ [Mnemonic.SEI, .CLI, .PLP, .RTI] → exec i (withI v s) = exec i s) ∧
      (i.mnemonic ∈ [Mnemonic.PHP, .BRK] → ∃ t u, exec i s = .next t ∧ exec i (withI v s) = .next u ∧
        t = { u with flags := t.flags, mem := t.mem } ∧ t.flags = { u.flags with i := t.flags.i } ∧
        ∀ a, a ≠ stackAbove t 1 → t.mem.read a = u.mem.read a)

/-- The decimal flag changes the work of no instruction but ADC and SBC (R125). -/
def Obligations.DecimalFlagAffectsAdcSbcOnly : Prop :=
  ∀ (i : Instr) (s t : State) (v : Bool),
    i.mnemonic ∉ [Mnemonic.ADC, .SBC, .SED, .CLD, .PLP, .RTI, .PHP, .BRK] →
    exec i s = .next t → exec i (withD v s) = .next (withD v t)

/-- LDA loads the operand into A and sets Z and N from it, in all eight modes (R110). -/
def Obligations.LdaLoadsAccumulator : Prop :=
  EncodedAs .LDA [(0xA9, .imm), (0xA5, .zp), (0xB5, .zpx), (0xAD, .abs), (0xBD, .absx), (0xB9, .absy),
  (0xA1, .indx), (0xB1, .indy)] ∧
  ∀ (i : Instr) (s : State), i.mnemonic = .LDA → ∃ src : Source, i.operand = src.operand ∧
    let v := operandByte src s
    exec i s = .next { afterOperand src s with
      a := v, flags := { s.flags with z := decide (v = 0), n := v.msb }, pc := nextPc i s }

/-- LDX and LDY load the operand into X or Y and set Z and N from it, in all their modes (R111, R112). -/
def Obligations.LdxLdyLoadIndexRegisters : Prop :=
  (EncodedAs .LDX [(0xA2, .imm), (0xA6, .zp), (0xB6, .zpy), (0xAE, .abs), (0xBE, .absy)] ∧
    ∀ (i : Instr) (s : State), i.mnemonic = .LDX → ∃ src : Source, i.operand = src.operand ∧
      let v := operandByte src s
      exec i s = .next { afterOperand src s with
        x := v, flags := { s.flags with z := decide (v = 0), n := v.msb }, pc := nextPc i s }) ∧
  (EncodedAs .LDY [(0xA0, .imm), (0xA4, .zp), (0xB4, .zpx), (0xAC, .abs), (0xBC, .absx)] ∧
    ∀ (i : Instr) (s : State), i.mnemonic = .LDY → ∃ src : Source, i.operand = src.operand ∧
      let v := operandByte src s
      exec i s = .next { afterOperand src s with
        y := v, flags := { s.flags with z := decide (v = 0), n := v.msb }, pc := nextPc i s })

/-- STA, STX and STY access their effective address once and store their register there, changing no flag (R113, R114, R115). -/
def Obligations.StoresWriteRegister : Prop :=
  (EncodedAs .STA [(0x85, .zp), (0x95, .zpx), (0x8D, .abs), (0x9D, .absx), (0x99, .absy), (0x81, .indx),
    (0x91, .indy)] ∧
    ∀ (i : Instr) (s : State), i.mnemonic = .STA → ∃ m, i.operand = .memory m ∧
      let ea := effectiveAddr m s
      exec i s = .next { store ea s.a (access ea s) with pc := nextPc i s }) ∧
  (EncodedAs .STX [(0x86, .zp), (0x96, .zpy), (0x8E, .abs)] ∧
    ∀ (i : Instr) (s : State), i.mnemonic = .STX → ∃ m, i.operand = .memory m ∧
      let ea := effectiveAddr m s
      exec i s = .next { store ea s.x (access ea s) with pc := nextPc i s }) ∧
  (EncodedAs .STY [(0x84, .zp), (0x94, .zpx), (0x8C, .abs)] ∧
    ∀ (i : Instr) (s : State), i.mnemonic = .STY → ∃ m, i.operand = .memory m ∧
      let ea := effectiveAddr m s
      exec i s = .next { store ea s.y (access ea s) with pc := nextPc i s })

/-- ADC adds with carry in binary mode and by BCD_ADC in decimal mode, with its flags (R120). -/
def Obligations.AdcAddsWithCarry : Prop :=
  EncodedAs .ADC [(0x69, .imm), (0x65, .zp), (0x75, .zpx), (0x6D, .abs), (0x7D, .absx), (0x79, .absy),
    (0x61, .indx), (0x71, .indy)] ∧
  ∀ (i : Instr) (s : State), i.mnemonic = .ADC → ∃ src : Source, i.operand = src.operand ∧
    let m := operandByte src s
    let sum := s.a.toNat + m.toNat + s.flags.c.toNat
    let signed : Int := s.a.toInt + m.toInt + s.flags.c.toNat
    let r : Byte := BitVec.ofNat 8 sum
    let q := bcdAdc s.cfg.bcdAdc s.a m s.flags.c
    (s.flags.d = false → exec i s = .next { afterOperand src s with
      a := r, pc := nextPc i s,
      flags := { s.flags with c := decide (256 ≤ sum), v := decide (signed < -128 ∨ 127 < signed),
                              z := decide (r = 0), n := r.msb } }) ∧
    (s.flags.d = true → exec i s = .next { afterOperand src s with
      a := q.1, pc := nextPc i s, flags := { s.flags with c := q.2, z := decide (q.1 = 0), n := q.1.msb } })

/-- SBC subtracts with borrow in binary mode and by BCD_SBC in decimal mode, with its flags (R121). -/
def Obligations.SbcSubtractsWithBorrow : Prop :=
  (EncodedAs .SBC [(0xE9, .imm), (0xE5, .zp), (0xF5, .zpx), (0xED, .abs), (0xFD, .absx), (0xF9, .absy),
    (0xE1, .indx), (0xF1, .indy)] ∧
    ∀ (i : Instr) (s : State), i.mnemonic = .SBC → ∃ src : Source, i.operand = src.operand ∧
      let m := operandByte src s
      let borrow : Int := 1 - s.flags.c.toNat
      let diff : Int := (s.a.toNat : Int) - m.toNat - borrow
      let signed : Int := s.a.toInt - m.toInt - borrow
      let r : Byte := BitVec.ofInt 8 diff
      let q := bcdSbc s.cfg.bcdSbc s.a m s.flags.c
      (s.flags.d = false → exec i s = .next { afterOperand src s with
        a := r, pc := nextPc i s,
        flags := { s.flags with c := decide (0 ≤ diff), v := decide (signed < -128 ∨ 127 < signed),
                                z := decide (r = 0), n := r.msb } }) ∧
      (s.flags.d = true → exec i s = .next { afterOperand src s with
        a := q.1, pc := nextPc i s, flags := { s.flags with c := q.2, z := decide (q.1 = 0), n := q.1.msb } })) ∧
  (∀ (rule rule' : BcdRule) (a m : Byte) (f : Flags), f.d = false → aluSbc rule a m f = aluAdc rule' a (m ^^^ 0xFF) f)

/-- Every BCD_ADC and BCD_SBC is exact on valid packed-BCD operands (R124). -/
def Obligations.DecimalArithmeticFollowsLaw : Prop :=
  ∀ (rule : BcdRule) (a m : Byte) (c : Bool),
    a.toNat / 16 ≤ 9 → a.toNat % 16 ≤ 9 → m.toNat / 16 ≤ 9 → m.toNat % 16 ≤ 9 →
    let dec := fun b : Byte => 10 * (b.toNat / 16) + b.toNat % 16
    let enc := fun n : Nat => BitVec.ofNat 8 (n / 10 * 16 + n % 10)
    let sum := dec a + dec m + c.toNat
    let diff : Int := (dec a : Int) - dec m - (1 - c.toNat)
    bcdAdc rule a m c = (enc (sum % 100), decide (100 ≤ sum)) ∧
    bcdSbc rule a m c = (enc (diff % 100).toNat, decide (0 ≤ diff))

/-- BCD_ADC and BCD_SBC can be any total functions under the law of R124, and are the defaults of R122 and R123 where none is supplied (00_scope R6, 41_arith_logic R122, 41_arith_logic R123, 41_arith_logic R124). -/
def Obligations.DecimalFunctionsAreArguments : Prop :=
  (∀ f : Byte → Byte → Bool → Byte × Bool,
    (∀ a m c, bcdValid a = true → bcdValid m = true → f a m c = bcdAdcLaw a m c) → bcdAdc (bcdTable f) = f) ∧
  (∀ f : Byte → Byte → Bool → Byte × Bool,
    (∀ a m c, bcdValid a = true → bcdValid m = true → f a m c = bcdSbcLaw a m c) → bcdSbc (bcdTable f) = f) ∧
  bcdAdc [] = bcdAdcDefault ∧ bcdSbc [] = bcdSbcDefault

/-- AND, ORA and EOR combine A with the operand bit by bit and set Z and N from the result (R126, R127, R128). -/
def Obligations.LogicCombinesAccumulator : Prop :=
  (EncodedAs .AND [(0x29, .imm), (0x25, .zp), (0x35, .zpx), (0x2D, .abs), (0x3D, .absx), (0x39, .absy),
    (0x21, .indx), (0x31, .indy)] ∧
    ∀ (i : Instr) (s : State), i.mnemonic = .AND → ∃ src : Source, i.operand = src.operand ∧
      let r := s.a &&& operandByte src s
      exec i s = .next { afterOperand src s with
        a := r, flags := { s.flags with z := decide (r = 0), n := r.msb }, pc := nextPc i s }) ∧
  (EncodedAs .ORA [(0x09, .imm), (0x05, .zp), (0x15, .zpx), (0x0D, .abs), (0x1D, .absx), (0x19, .absy),
    (0x01, .indx), (0x11, .indy)] ∧
    ∀ (i : Instr) (s : State), i.mnemonic = .ORA → ∃ src : Source, i.operand = src.operand ∧
      let r := s.a ||| operandByte src s
      exec i s = .next { afterOperand src s with
        a := r, flags := { s.flags with z := decide (r = 0), n := r.msb }, pc := nextPc i s }) ∧
  (EncodedAs .EOR [(0x49, .imm), (0x45, .zp), (0x55, .zpx), (0x4D, .abs), (0x5D, .absx), (0x59, .absy),
    (0x41, .indx), (0x51, .indy)] ∧
    ∀ (i : Instr) (s : State), i.mnemonic = .EOR → ∃ src : Source, i.operand = src.operand ∧
      let r := s.a ^^^ operandByte src s
      exec i s = .next { afterOperand src s with
        a := r, flags := { s.flags with z := decide (r = 0), n := r.msb }, pc := nextPc i s })

/-- ASL and LSR shift A or a byte of memory by one, the bit shifted out going to C (R140, R141). -/
def Obligations.AslLsrShift : Prop :=
  (EncodedAs .ASL [(0x0A, .acc), (0x06, .zp), (0x16, .zpx), (0x0E, .abs), (0x1E, .absx)] ∧
    ∀ (i : Instr) (s : State), i.mnemonic = .ASL → ∃ tgt : Target, i.operand = tgt.operand ∧
      let r := fun m : Byte => (BitVec.ofNat 8 (m.toNat * 2) : Byte)
      let fl := fun m : Byte => { s.flags with c := decide (128 ≤ m.toNat), z := decide (r m = 0), n := (r m).msb }
      match tgt with
      | .acc => exec i s = .next { s with a := r s.a, flags := fl s.a, pc := nextPc i s }
      | .mem mo =>
        let ea := effectiveAddr mo s
        let m := loaded ea s
        exec i s = .next { store ea (r m) (afterLoad ea s) with flags := fl m, pc := nextPc i s }) ∧
  (EncodedAs .LSR [(0x4A, .acc), (0x46, .zp), (0x56, .zpx), (0x4E, .abs), (0x5E, .absx)] ∧
    ∀ (i : Instr) (s : State), i.mnemonic = .LSR → ∃ tgt : Target, i.operand = tgt.operand ∧
      let r := fun m : Byte => (BitVec.ofNat 8 (m.toNat / 2) : Byte)
      let fl := fun m : Byte => { s.flags with c := decide (m.toNat % 2 = 1), z := decide (r m = 0), n := (r m).msb }
      match tgt with
      | .acc => exec i s = .next { s with a := r s.a, flags := fl s.a, pc := nextPc i s }
      | .mem mo =>
        let ea := effectiveAddr mo s
        let m := loaded ea s
        exec i s = .next { store ea (r m) (afterLoad ea s) with flags := fl m, pc := nextPc i s })

/-- ROL and ROR rotate A or a byte of memory through C, the old carry entering and the bit shifted out leaving (R142, R143). -/
def Obligations.RolRorRotateThroughCarry : Prop :=
  (EncodedAs .ROL [(0x2A, .acc), (0x26, .zp), (0x36, .zpx), (0x2E, .abs), (0x3E, .absx)] ∧
    ∀ (i : Instr) (s : State), i.mnemonic = .ROL → ∃ tgt : Target, i.operand = tgt.operand ∧
      let r := fun m : Byte => (BitVec.ofNat 8 (m.toNat * 2 % 256 + s.flags.c.toNat) : Byte)
      let fl := fun m : Byte => { s.flags with c := decide (128 ≤ m.toNat), z := decide (r m = 0), n := (r m).msb }
      match tgt with
      | .acc => exec i s = .next { s with a := r s.a, flags := fl s.a, pc := nextPc i s }
      | .mem mo =>
        let ea := effectiveAddr mo s
        let m := loaded ea s
        exec i s = .next { store ea (r m) (afterLoad ea s) with flags := fl m, pc := nextPc i s }) ∧
  (EncodedAs .ROR [(0x6A, .acc), (0x66, .zp), (0x76, .zpx), (0x6E, .abs), (0x7E, .absx)] ∧
    ∀ (i : Instr) (s : State), i.mnemonic = .ROR → ∃ tgt : Target, i.operand = tgt.operand ∧
      let r := fun m : Byte => (BitVec.ofNat 8 (m.toNat / 2 + 128 * s.flags.c.toNat) : Byte)
      let fl := fun m : Byte => { s.flags with c := decide (m.toNat % 2 = 1), z := decide (r m = 0), n := (r m).msb }
      match tgt with
      | .acc => exec i s = .next { s with a := r s.a, flags := fl s.a, pc := nextPc i s }
      | .mem mo =>
        let ea := effectiveAddr mo s
        let m := loaded ea s
        exec i s = .next { store ea (r m) (afterLoad ea s) with flags := fl m, pc := nextPc i s })

/-- CMP, CPX and CPY compare their register with the operand: C, Z and N only, whatever the incoming carry (R150, R151, R152). -/
def Obligations.ComparesSetFlagsOnly : Prop :=
  (EncodedAs .CMP [(0xC9, .imm), (0xC5, .zp), (0xD5, .zpx), (0xCD, .abs), (0xDD, .absx), (0xD9, .absy),
    (0xC1, .indx), (0xD1, .indy)] ∧
    ∀ (i : Instr) (s : State), i.mnemonic = .CMP → ∃ src : Source, i.operand = src.operand ∧
      let m := operandByte src s
      exec i s = .next { afterOperand src s with
        flags := { s.flags with c := decide (m.toNat ≤ s.a.toNat), z := decide (s.a = m),
                                n := decide (128 ≤ (s.a.toNat + 256 - m.toNat) % 256) }, pc := nextPc i s }) ∧
  (EncodedAs .CPX [(0xE0, .imm), (0xE4, .zp), (0xEC, .abs)] ∧
    ∀ (i : Instr) (s : State), i.mnemonic = .CPX → ∃ src : Source, i.operand = src.operand ∧
      let m := operandByte src s
      exec i s = .next { afterOperand src s with
        flags := { s.flags with c := decide (m.toNat ≤ s.x.toNat), z := decide (s.x = m),
                                n := decide (128 ≤ (s.x.toNat + 256 - m.toNat) % 256) }, pc := nextPc i s }) ∧
  (EncodedAs .CPY [(0xC0, .imm), (0xC4, .zp), (0xCC, .abs)] ∧
    ∀ (i : Instr) (s : State), i.mnemonic = .CPY → ∃ src : Source, i.operand = src.operand ∧
      let m := operandByte src s
      exec i s = .next { afterOperand src s with
        flags := { s.flags with c := decide (m.toNat ≤ s.y.toNat), z := decide (s.y = m),
                                n := decide (128 ≤ (s.y.toNat + 256 - m.toNat) % 256) }, pc := nextPc i s })

/-- INC and DEC add one to or take one from a byte of memory modulo 256 and set Z and N, also when the store is discarded (R153, R154). -/
def Obligations.IncDecMemory : Prop :=
  (EncodedAs .INC [(0xE6, .zp), (0xF6, .zpx), (0xEE, .abs), (0xFE, .absx)] ∧
    ∀ (i : Instr) (s : State), i.mnemonic = .INC → ∃ m, i.operand = .memory m ∧
      let ea := effectiveAddr m s
      let r : Byte := BitVec.ofNat 8 ((loaded ea s).toNat + 1)
      exec i s = .next { store ea r (afterLoad ea s) with
        flags := { s.flags with z := decide (r = 0), n := r.msb }, pc := nextPc i s }) ∧
  (EncodedAs .DEC [(0xC6, .zp), (0xD6, .zpx), (0xCE, .abs), (0xDE, .absx)] ∧
    ∀ (i : Instr) (s : State), i.mnemonic = .DEC → ∃ m, i.operand = .memory m ∧
      let ea := effectiveAddr m s
      let r : Byte := BitVec.ofNat 8 ((loaded ea s).toNat + 255)
      exec i s = .next { store ea r (afterLoad ea s) with
        flags := { s.flags with z := decide (r = 0), n := r.msb }, pc := nextPc i s })

/-- INX, INY, DEX and DEY count their index register modulo 256 and set Z and N from it (R155, R156, R157, R158). -/
def Obligations.IndexRegistersCount : Prop :=
  (EncodedAs .INX [(0xE8, .imp)] ∧ ∀ s : State, let r : Byte := BitVec.ofNat 8 (s.x.toNat + 1)
    exec .inx s = .next { s with x := r, flags := { s.flags with z := decide (r = 0), n := r.msb }, pc := s.pc + 1 }) ∧
  (EncodedAs .INY [(0xC8, .imp)] ∧ ∀ s : State, let r : Byte := BitVec.ofNat 8 (s.y.toNat + 1)
    exec .iny s = .next { s with y := r, flags := { s.flags with z := decide (r = 0), n := r.msb }, pc := s.pc + 1 }) ∧
  (EncodedAs .DEX [(0xCA, .imp)] ∧ ∀ s : State, let r : Byte := BitVec.ofNat 8 (s.x.toNat + 255)
    exec .dex s = .next { s with x := r, flags := { s.flags with z := decide (r = 0), n := r.msb }, pc := s.pc + 1 }) ∧
  (EncodedAs .DEY [(0x88, .imp)] ∧ ∀ s : State, let r : Byte := BitVec.ofNat 8 (s.y.toNat + 255)
    exec .dey s = .next { s with y := r, flags := { s.flags with z := decide (r = 0), n := r.msb }, pc := s.pc + 1 })

/-- BIT sets Z from A & M, and V and N from bits 6 and 7 of M, and changes neither A nor C (R159). -/
def Obligations.BitTestsOperand : Prop :=
  EncodedAs .BIT [(0x24, .zp), (0x2C, .abs)] ∧
  ∀ (i : Instr) (s : State), i.mnemonic = .BIT → ∃ src : Source, i.operand = src.operand ∧
    let m := operandByte src s
    exec i s = .next { afterOperand src s with
      flags := { s.flags with z := decide (s.a &&& m = 0), v := decide (64 ≤ m.toNat % 128), n := decide (128 ≤ m.toNat) },
      pc := nextPc i s }

/-- TAX, TAY, TXA, TYA and TSX copy a register and set Z and N from it; TXS copies and changes no flag (R170, R171, R172, R173, R174, R175). -/
def Obligations.TransfersCopyRegisters : Prop :=
  (EncodedAs .TAX [(0xAA, .imp)] ∧ ∀ s : State, exec .tax s = .next { s with
    x := s.a, flags := { s.flags with z := decide (s.a = 0), n := s.a.msb }, pc := s.pc + 1 }) ∧
  (EncodedAs .TAY [(0xA8, .imp)] ∧ ∀ s : State, exec .tay s = .next { s with
    y := s.a, flags := { s.flags with z := decide (s.a = 0), n := s.a.msb }, pc := s.pc + 1 }) ∧
  (EncodedAs .TXA [(0x8A, .imp)] ∧ ∀ s : State, exec .txa s = .next { s with
    a := s.x, flags := { s.flags with z := decide (s.x = 0), n := s.x.msb }, pc := s.pc + 1 }) ∧
  (EncodedAs .TYA [(0x98, .imp)] ∧ ∀ s : State, exec .tya s = .next { s with
    a := s.y, flags := { s.flags with z := decide (s.y = 0), n := s.y.msb }, pc := s.pc + 1 }) ∧
  (EncodedAs .TSX [(0xBA, .imp)] ∧ ∀ s : State, exec .tsx s = .next { s with
    x := s.sp, flags := { s.flags with z := decide (s.sp = 0), n := s.sp.msb }, pc := s.pc + 1 }) ∧
  (EncodedAs .TXS [(0x9A, .imp)] ∧ ∀ s : State, exec .txs s = .next { s with sp := s.x, pc := s.pc + 1 })

/-- PHA pushes A; PLA pulls A and sets Z and N from it (R176, R177). -/
def Obligations.PhaPlaMoveAccumulator : Prop :=
  (EncodedAs .PHA [(0x48, .imp)] ∧ ∀ s : State, exec .pha s = .next { store (stackSlot s 0) s.a s with sp := s.sp - 1, pc := s.pc + 1 }) ∧
  (EncodedAs .PLA [(0x68, .imp)] ∧ ∀ s : State, let v := s.mem.read (stackAbove s 1)
    exec .pla s = .next { s with
      a := v, sp := s.sp + 1, flags := { s.flags with z := decide (v = 0), n := v.msb }, pc := s.pc + 1 })

/-- PHP pushes N V 1 1 D I Z C; PLP restores all seven flags from the pulled byte and ignores bit 5 (R28, R178, R179). -/
def Obligations.PhpPlpMoveStatus : Prop :=
  (∀ f : Flags, (packStatus f).toNat = 128 * f.n.toNat + 64 * f.v.toNat + 32 + 16 * f.b.toNat + 8 * f.d.toNat +
    4 * f.i.toNat + 2 * f.z.toNat + f.c.toNat) ∧
  (∀ f : Flags, (pushedStatus f).toNat = 128 * f.n.toNat + 64 * f.v.toNat + 48 + 8 * f.d.toNat +
    4 * f.i.toNat + 2 * f.z.toNat + f.c.toNat) ∧
  (EncodedAs .PHP [(0x08, .imp)] ∧ ∀ s : State,
    exec .php s = .next { store (stackSlot s 0) (pushedStatus s.flags) s with sp := s.sp - 1, pc := s.pc + 1 }) ∧
  (EncodedAs .PLP [(0x28, .imp)] ∧ ∀ s : State, let p := s.mem.read (stackAbove s 1)
    exec .plp s = .next { s with
      sp := s.sp + 1, pc := s.pc + 1,
      flags := { n := p.getLsbD 7, v := p.getLsbD 6, b := p.getLsbD 4, d := p.getLsbD 3, i := p.getLsbD 2,
                 z := p.getLsbD 1, c := p.getLsbD 0 } })

/-- JMP sets PC to its operand, or to the word its pointer addresses, and changes nothing else; a stop reports the address of R245 (log 6) (45_control R190, 45_control R191, 60_exceptions R245). -/
def Obligations.JmpSetsPc : Prop :=
  EncodedAs .JMP [(0x4C, .abs), (0x6C, .ind)] ∧
  (∀ (w : Addr) (s : State), exec (.jmpAbs w) s = .next { s with pc := w }) ∧
  (∀ (p : Addr) (s : State),
    let p1 : Addr := if s.cfg.jmpIndPageWrap = true then BitVec.ofNat 16 (p.toNat / 256 * 256 + (p.toNat + 1) % 256)
      else BitVec.ofNat 16 (p.toNat + 1)
    (intercepted s.cfg p = false → intercepted s.cfg p1 = false →
      exec (.jmpInd p) s = .next { s with pc := pair (s.mem.read p1) (s.mem.read p) }) ∧
    (intercepted s.cfg p = true ∨ intercepted s.cfg p1 = true →
      exec (.jmpInd p) s = .fault (.unmodelled .deviceFetch (if intercepted s.cfg p = true then p else p1))))

/-- JSR pushes the address of its last byte, high byte first, and jumps; RTS pulls a word, low byte first, and adds one (R192, R193). -/
def Obligations.JsrPushesRtsReturns : Prop :=
  (EncodedAs .JSR [(0x20, .abs)] ∧ ∀ (w : Addr) (s : State), let r := s.pc + 2
    exec (.jsr w) s = .next { store (stackSlot s 1) (lo r) (store (stackSlot s 0) (hi r) s) with
      sp := s.sp - 2, pc := w }) ∧
  (EncodedAs .RTS [(0x60, .imp)] ∧ ∀ s : State,
    exec .rts s = .next { s with
      sp := s.sp + 2, pc := pair (s.mem.read (stackAbove s 2)) (s.mem.read (stackAbove s 1)) + 1 })

/-- A JSR and a later RTS with SP and the two stack bytes intact return to the instruction after the JSR (R194). -/
def Obligations.RtsReturnsAfterJsr : Prop :=
  ∀ (s t u : State) (w : Addr), 0x01FF < s.cfg.romBoundary.val → exec (.jsr w) s = .next t → u.sp = t.sp →
    u.mem.read (stackSlot s 0) = t.mem.read (stackSlot s 0) → u.mem.read (stackSlot s 1) = t.mem.read (stackSlot s 1) →
    ∃ r, exec .rts u = .next r ∧ r.pc = s.pc + 3 ∧ r.sp = s.sp

/-- BRK pushes its own address plus 2 and the status byte, sets I, and loads PC from the vector at 0xFFFE (R195). -/
def Obligations.BrkEntersTrap : Prop :=
  EncodedAs .BRK [(0x00, .brk)] ∧
  ∀ (pad : Byte) (s : State),
    let r := s.pc + 2
    let u := store (stackSlot s 2) (pushedStatus s.flags) (store (stackSlot s 1) (lo r) (store (stackSlot s 0) (hi r) s))
    exec (.brk pad) s = .next { u with
      sp := s.sp - 3, flags := { s.flags with i := true }, pc := pair (u.mem.read 0xFFFF) (u.mem.read 0xFFFE) }

/-- RTI pulls the status byte, restoring every flag but B, and then PC without a correction (R196). -/
def Obligations.RtiLeavesTrap : Prop :=
  EncodedAs .RTI [(0x40, .imp)] ∧
  ∀ s : State, let p := s.mem.read (stackAbove s 1)
    exec .rti s = .next { s with
      sp := s.sp + 3, pc := pair (s.mem.read (stackAbove s 3)) (s.mem.read (stackAbove s 2)),
      flags := { s.flags with n := p.getLsbD 7, v := p.getLsbD 6, d := p.getLsbD 3, i := p.getLsbD 2,
                              z := p.getLsbD 1, c := p.getLsbD 0 } }

/-- A BRK and a later RTI with SP, the three stack bytes and B intact restore PC past the BRK, SP and all seven flags (R197). -/
def Obligations.RtiReturnsAfterBrk : Prop :=
  ∀ (s t u : State) (pad : Byte), 0x01FF < s.cfg.romBoundary.val → exec (.brk pad) s = .next t → u.sp = t.sp →
    (∀ k, k < 3 → u.mem.read (stackSlot s k) = t.mem.read (stackSlot s k)) → u.flags.b = t.flags.b →
    ∃ r, exec .rti u = .next r ∧ r.pc = s.pc + 2 ∧ r.sp = s.sp ∧ r.flags = s.flags

/-- Each branch tests its one flag and goes to op_addr + 2 + sext_8(o1) if the condition holds, else to op_addr + 2 (R205, R206, R207, R208, R209, R210, R211, R212, R213). -/
def Obligations.BranchesTestOneFlag : Prop :=
  let goes := fun (i : Instr) (d : Byte) (s : State) (cond : Prop) =>
    ∃ t, exec i s = .next t ∧ t = { s with pc := t.pc } ∧
      (cond → (t.pc.toNat : Int) = (s.pc.toNat + 2 + d.toInt) % 65536) ∧
      (¬ cond → (t.pc.toNat : Int) = (s.pc.toNat + 2) % 65536)
  (EncodedAs .BCC [(0x90, .rel)] ∧ ∀ d s, goes (.bcc d) d s (s.flags.c = false)) ∧
  (EncodedAs .BCS [(0xB0, .rel)] ∧ ∀ d s, goes (.bcs d) d s (s.flags.c = true)) ∧
  (EncodedAs .BEQ [(0xF0, .rel)] ∧ ∀ d s, goes (.beq d) d s (s.flags.z = true)) ∧
  (EncodedAs .BMI [(0x30, .rel)] ∧ ∀ d s, goes (.bmi d) d s (s.flags.n = true)) ∧
  (EncodedAs .BNE [(0xD0, .rel)] ∧ ∀ d s, goes (.bne d) d s (s.flags.z = false)) ∧
  (EncodedAs .BPL [(0x10, .rel)] ∧ ∀ d s, goes (.bpl d) d s (s.flags.n = false)) ∧
  (EncodedAs .BVC [(0x50, .rel)] ∧ ∀ d s, goes (.bvc d) d s (s.flags.v = false)) ∧
  (EncodedAs .BVS [(0x70, .rel)] ∧ ∀ d s, goes (.bvs d) d s (s.flags.v = true))

/-- SEC, CLC, SED, CLD, SEI, CLI and CLV set or clear exactly their one flag; NOP changes nothing but PC (R220, R221, R222, R223, R224, R225, R226, R227). -/
def Obligations.FlagInstructionsSetOneFlag : Prop :=
  (EncodedAs .SEC [(0x38, .imp)] ∧ ∀ s : State, exec .sec s = .next { s with flags := { s.flags with c := true }, pc := s.pc + 1 }) ∧
  (EncodedAs .CLC [(0x18, .imp)] ∧ ∀ s : State, exec .clc s = .next { s with flags := { s.flags with c := false }, pc := s.pc + 1 }) ∧
  (EncodedAs .SED [(0xF8, .imp)] ∧ ∀ s : State, exec .sed s = .next { s with flags := { s.flags with d := true }, pc := s.pc + 1 }) ∧
  (EncodedAs .CLD [(0xD8, .imp)] ∧ ∀ s : State, exec .cld s = .next { s with flags := { s.flags with d := false }, pc := s.pc + 1 }) ∧
  (EncodedAs .SEI [(0x78, .imp)] ∧ ∀ s : State, exec .sei s = .next { s with flags := { s.flags with i := true }, pc := s.pc + 1 }) ∧
  (EncodedAs .CLI [(0x58, .imp)] ∧ ∀ s : State, exec .cli s = .next { s with flags := { s.flags with i := false }, pc := s.pc + 1 }) ∧
  (EncodedAs .CLV [(0xB8, .imp)] ∧ ∀ s : State, exec .clv s = .next { s with flags := { s.flags with v := false }, pc := s.pc + 1 }) ∧
  (EncodedAs .NOP [(0xEA, .imp)] ∧ ∀ s : State, exec .nop s = .next { s with pc := s.pc + 1 })
end

