-- ==== Sys2Proof/Laws/Decode.lean ====
section
/-! SUPPORT. What a row of the opcode map says, both ways: the decoder's table against the encoder's, row by row. -/

namespace Sys2Proof

/-- A row of the decoder's table agrees with the encoder: opcode byte and operand bytes. -/
def Shape.agrees (op : Byte) : Shape → Prop
  | .none i => opcode i = op ∧ i.operand.bytes = []
  | .byte mk => ∀ o, opcode (mk o) = op ∧ (mk o).operand.bytes = [o]
  | .word mk => ∀ w, opcode (mk w) = op ∧ (mk w).operand.bytes = [Machine.lo w, Machine.hi w]

/-- A list of rows that all agree with the encoder. -/
def RowsAgree : List (Byte × Shape) → Prop
  | [] => True
  | r :: rows => r.2.agrees r.1 ∧ RowsAgree rows

theorem rowsAgree_append (l m : List (Byte × Shape)) (hl : RowsAgree l) (hm : RowsAgree m) : RowsAgree (l ++ m) := by
  induction l with
  | nil => exact hm
  | cons r l ih => exact ⟨hl.1, ih hl.2⟩

theorem rowsAgree_mem (l : List (Byte × Shape)) (h : RowsAgree l) : ∀ r ∈ l, r.2.agrees r.1 := by
  induction l with
  | nil => simp
  | cons r l ih => exact fun x hx => (List.mem_cons.mp hx).elim (fun e => e ▸ h.1) (ih h.2 x)

theorem opRow0_agrees : RowsAgree opRow0 := by
  repeat' first | exact trivial | exact ⟨rfl, rfl⟩ | exact fun _ => ⟨rfl, rfl⟩ | constructor

theorem opRow1_agrees : RowsAgree opRow1 := by
  repeat' first | exact trivial | exact ⟨rfl, rfl⟩ | exact fun _ => ⟨rfl, rfl⟩ | constructor

theorem opRow2_agrees : RowsAgree opRow2 := by
  repeat' first | exact trivial | exact ⟨rfl, rfl⟩ | exact fun _ => ⟨rfl, rfl⟩ | constructor

theorem opRow3_agrees : RowsAgree opRow3 := by
  repeat' first | exact trivial | exact ⟨rfl, rfl⟩ | exact fun _ => ⟨rfl, rfl⟩ | constructor

theorem opRow4_agrees : RowsAgree opRow4 := by
  repeat' first | exact trivial | exact ⟨rfl, rfl⟩ | exact fun _ => ⟨rfl, rfl⟩ | constructor

theorem opRow5_agrees : RowsAgree opRow5 := by
  repeat' first | exact trivial | exact ⟨rfl, rfl⟩ | exact fun _ => ⟨rfl, rfl⟩ | constructor

theorem opRow6_agrees : RowsAgree opRow6 := by
  repeat' first | exact trivial | exact ⟨rfl, rfl⟩ | exact fun _ => ⟨rfl, rfl⟩ | constructor

theorem opRow7_agrees : RowsAgree opRow7 := by
  repeat' first | exact trivial | exact ⟨rfl, rfl⟩ | exact fun _ => ⟨rfl, rfl⟩ | constructor

theorem opRow8_agrees : RowsAgree opRow8 := by
  repeat' first | exact trivial | exact ⟨rfl, rfl⟩ | exact fun _ => ⟨rfl, rfl⟩ | constructor

theorem opRow9_agrees : RowsAgree opRow9 := by
  repeat' first | exact trivial | exact ⟨rfl, rfl⟩ | exact fun _ => ⟨rfl, rfl⟩ | constructor

theorem opRowA_agrees : RowsAgree opRowA := by
  repeat' first | exact trivial | exact ⟨rfl, rfl⟩ | exact fun _ => ⟨rfl, rfl⟩ | constructor

theorem opRowB_agrees : RowsAgree opRowB := by
  repeat' first | exact trivial | exact ⟨rfl, rfl⟩ | exact fun _ => ⟨rfl, rfl⟩ | constructor

theorem opRowC_agrees : RowsAgree opRowC := by
  repeat' first | exact trivial | exact ⟨rfl, rfl⟩ | exact fun _ => ⟨rfl, rfl⟩ | constructor

theorem opRowD_agrees : RowsAgree opRowD := by
  repeat' first | exact trivial | exact ⟨rfl, rfl⟩ | exact fun _ => ⟨rfl, rfl⟩ | constructor

theorem opRowE_agrees : RowsAgree opRowE := by
  repeat' first | exact trivial | exact ⟨rfl, rfl⟩ | exact fun _ => ⟨rfl, rfl⟩ | constructor

theorem opRowF_agrees : RowsAgree opRowF := by
  repeat' first | exact trivial | exact ⟨rfl, rfl⟩ | exact fun _ => ⟨rfl, rfl⟩ | constructor

/-- The whole decoder table agrees with the encoder. -/
theorem opTable_agrees : RowsAgree opTable := by
  simp only [opTable]
  repeat' first | apply rowsAgree_append
  exacts [opRow0_agrees, opRow1_agrees, opRow2_agrees, opRow3_agrees, opRow4_agrees, opRow5_agrees, opRow6_agrees, opRow7_agrees, opRow8_agrees, opRow9_agrees, opRowA_agrees, opRowB_agrees, opRowC_agrees, opRowD_agrees, opRowE_agrees, opRowF_agrees]

/-- What the decoder finds for an opcode byte agrees with the encoder. -/
theorem opMap_agrees {op : Byte} {sh : Shape} (h : opMap op = some sh) : sh.agrees op := by
  simp only [opMap, Option.map_eq_some_iff] at h
  obtain ⟨⟨k, sh'⟩, hf, rfl⟩ := h
  have hk : k = op := by simpa using List.find?_some hf
  exact hk ▸ rowsAgree_mem _ opTable_agrees _ (List.mem_of_find?_eq_some hf)

end Sys2Proof
end

