-- ==== Sys2Proof/Laws/Memory.lean ====
section
/-! SUPPORT. The laws of memory: a byte reads as last written, every other byte is left alone, and every operation keeps the
canonical form (20_memory.md R50, 70_reset_and_hazards.md R270). -/

namespace Sys2Proof.Machine

theorem memory_get_erase (m : Memory) (a b : Nat) :
    Memory.get (Memory.erase m a) b = if b = a then Memory.unlisted else Memory.get m b := by
  induction m with
  | nil => simp [Memory.erase, Memory.get]
  | cons c m ih =>
    obtain ⟨k, v⟩ := c
    simp only [Memory.erase] at ih
    by_cases hk : k = a
    · subst hk
      simp only [Memory.erase, List.filter_cons, bne_self_eq_false, Bool.false_eq_true, if_false, ih, Memory.get]
      split_ifs <;> first | rfl | omega
    · have hk' : (k != a) = true := by simpa using hk
      simp only [Memory.erase, List.filter_cons, hk', if_true, Memory.get, ih]
      split_ifs <;> first | rfl | omega

theorem memory_get_insert (m : Memory) (a b : Nat) (v : Byte) (h : ∀ c ∈ m, c.1 ≠ a) :
    Memory.get (Memory.insert m a v) b = if b = a then v else Memory.get m b := by
  induction m with
  | nil => simp [Memory.insert, Memory.get, eq_comm]
  | cons c m ih =>
    obtain ⟨k, w⟩ := c
    have hk : k ≠ a := h (k, w) (by simp)
    have ih := ih fun c hc => h c (by simp [hc])
    simp only [Memory.insert]
    split_ifs with h1 h2 h2 <;> simp only [Memory.get, ih] <;> split_ifs <;> first | rfl | omega

theorem memory_erase_absent (m : Memory) (a : Nat) : ∀ c ∈ Memory.erase m a, c.1 ≠ a := by
  simp [Memory.erase]

/-- A write gives its byte at its address and leaves every other byte alone. -/
theorem memory_get_set (m : Memory) (a b : Nat) (v : Byte) :
    Memory.get (Memory.set m a v) b = if b = a then v else Memory.get m b := by
  simp only [Memory.set]
  split_ifs with hv h1 h1
  · simp [memory_get_erase, h1, hv]
  · simp [memory_get_erase, h1]
  · simp [memory_get_insert _ _ _ _ (memory_erase_absent m a), h1]
  · simp [memory_get_insert _ _ _ _ (memory_erase_absent m a), memory_get_erase, h1]

/-- The same for a write and a read at 16-bit addresses (R50). -/
@[simp] theorem memory_read_write (m : Memory) (a b : Addr) (v : Byte) :
    (m.write a v).read b = if b = a then v else m.read b := by
  simp [Memory.read, Memory.write, memory_get_set, BitVec.toNat_inj]

@[simp] theorem memory_read_nil (a : Addr) : Memory.read [] a = 0 := rfl

theorem memory_wfFrom_mono {m : Memory} {lo lo' : Nat} (h : lo' ≤ lo) (hm : Memory.wfFrom lo m = true) :
    Memory.wfFrom lo' m = true := by
  cases m with
  | nil => rfl
  | cons c m =>
    obtain ⟨k, v⟩ := c
    simp only [Memory.wfFrom, Bool.and_eq_true, decide_eq_true_eq] at hm ⊢
    exact ⟨⟨⟨by omega, hm.1.1.2⟩, hm.1.2⟩, hm.2⟩

theorem memory_wfFrom_erase (m : Memory) (a lo : Nat) (hm : Memory.wfFrom lo m = true) :
    Memory.wfFrom lo (Memory.erase m a) = true := by
  induction m generalizing lo with
  | nil => rfl
  | cons c m ih =>
    obtain ⟨k, v⟩ := c
    simp only [Memory.wfFrom, Bool.and_eq_true, decide_eq_true_eq] at hm
    have ih := ih _ hm.2
    simp only [Memory.erase] at ih
    by_cases hk : k = a
    · have h : lo ≤ k + 1 := by omega
      simpa [Memory.erase, hk] using memory_wfFrom_mono h ih
    · simp only [Memory.erase, List.filter_cons, show (k != a) = true by simpa using hk, if_true, Memory.wfFrom,
        Bool.and_eq_true, decide_eq_true_eq]
      exact ⟨hm.1, ih⟩

theorem memory_wfFrom_insert (m : Memory) (a lo : Nat) (v : Byte) (hm : Memory.wfFrom lo m = true) (hlo : lo ≤ a)
    (ha : a < memSize) (hv : v ≠ Memory.unlisted) (hn : ∀ c ∈ m, c.1 ≠ a) :
    Memory.wfFrom lo (Memory.insert m a v) = true := by
  induction m generalizing lo with
  | nil => simp [Memory.insert, Memory.wfFrom, hlo, ha, hv]
  | cons c m ih =>
    obtain ⟨k, w⟩ := c
    have hk : k ≠ a := hn (k, w) (by simp)
    simp only [Memory.wfFrom, Bool.and_eq_true, decide_eq_true_eq] at hm
    simp only [Memory.insert]
    split_ifs with h1
    · simp only [Memory.wfFrom, Bool.and_eq_true, decide_eq_true_eq, bne_iff_ne]
      exact ⟨⟨⟨hlo, ha⟩, hv⟩, ⟨⟨h1, hm.1.1.2⟩, bne_iff_ne.mp hm.1.2⟩, hm.2⟩
    · simp only [Memory.wfFrom, Bool.and_eq_true, decide_eq_true_eq]
      exact ⟨hm.1, ih _ hm.2 (by omega) fun c hc => hn c (by simp [hc])⟩

/-- Every write keeps the canonical form. -/
theorem memory_wf_write (m : Memory) (a : Addr) (v : Byte) (hm : m.wf = true) : (m.write a v).wf = true := by
  simp only [Memory.write, Memory.set, Memory.wf] at *
  split_ifs with hv
  · exact memory_wfFrom_erase _ _ _ hm
  · exact memory_wfFrom_insert _ _ _ _ (memory_wfFrom_erase _ _ _ hm) (by omega) (by simp [memSize]; omega) hv
      (memory_erase_absent _ _)

/-- An image that fits is loaded in the canonical form. -/
theorem memory_wfFrom_load (image : List Byte) (a : Nat) (h : a + image.length ≤ memSize) :
    Memory.wfFrom a (Memory.loadFrom a image) = true := by
  induction image generalizing a with
  | nil => rfl
  | cons b image ih =>
    simp only [List.length_cons] at h
    have ih := ih (a + 1) (by omega)
    simp only [Memory.loadFrom]
    split_ifs with hb
    · exact memory_wfFrom_mono (by omega) ih
    · simp only [Memory.wfFrom, Bool.and_eq_true, decide_eq_true_eq, bne_iff_ne]
      exact ⟨⟨⟨le_refl _, by omega⟩, hb⟩, ih⟩

theorem memory_wf_load (image : List Byte) (h : image.length ≤ memSize) : (Memory.loadFrom 0 image).wf = true :=
  memory_wfFrom_load image 0 (by omega)

/-- A loaded image reads as its bytes, and every other address as `Memory.unlisted`. -/
theorem memory_get_load (image : List Byte) (a b : Nat) :
    Memory.get (Memory.loadFrom a image) b = if a ≤ b then image.getD (b - a) Memory.unlisted else Memory.unlisted := by
  induction image generalizing a with
  | nil => simp [Memory.loadFrom, Memory.get]
  | cons v image ih =>
    have step : Memory.get (Memory.loadFrom a (v :: image)) b =
        if a = b then v else Memory.get (Memory.loadFrom (a + 1) image) b := by
      simp only [Memory.loadFrom]
      split_ifs with hv hb hb
      · rw [ih, if_neg (by omega), hv]
      · rfl
      · simp [Memory.get, hb]
      · simp [Memory.get, hb]
    rw [step, ih]
    by_cases h1 : a = b
    · subst h1; simp
    · by_cases h2 : a ≤ b
      · have h3 : b - a = (b - (a + 1)) + 1 := by omega
        rw [if_neg h1, if_pos (by omega), if_pos h2, h3, List.getD_cons_succ]
      · rw [if_neg h1, if_neg (by omega), if_neg h2]

theorem memory_read_load (image : List Byte) (a : Addr) :
    (Memory.loadFrom 0 image).read a = image.getD a.toNat Memory.unlisted := by
  simp [Memory.read, memory_get_load]

/-- A memory in canonical form is determined by what it reads as from its first possible address on. -/
theorem memory_get_below (m : Memory) (lo a : Nat) (hm : Memory.wfFrom lo m = true) (ha : a < lo) :
    Memory.get m a = Memory.unlisted := by
  induction m generalizing lo with
  | nil => rfl
  | cons c m ih =>
    obtain ⟨k, v⟩ := c
    simp only [Memory.wfFrom, Bool.and_eq_true, decide_eq_true_eq] at hm
    simp only [Memory.get, if_neg (show k ≠ a by omega)]
    exact ih (k + 1) hm.2 (by omega)

/-- Equal memories are equal data: two memories in canonical form that read the same everywhere are the same list. -/
theorem memory_ext (m m' : Memory) (lo : Nat) (hm : Memory.wfFrom lo m = true) (hm' : Memory.wfFrom lo m' = true)
    (h : ∀ a, Memory.get m a = Memory.get m' a) : m = m' := by
  induction m generalizing lo m' with
  | nil =>
    cases m' with
    | nil => rfl
    | cons c m' =>
      obtain ⟨k, v⟩ := c
      simp only [Memory.wfFrom, Bool.and_eq_true, bne_iff_ne] at hm'
      exact absurd (h k).symm (by simpa [Memory.get] using hm'.1.2)
  | cons c m ih =>
    obtain ⟨k, v⟩ := c
    simp only [Memory.wfFrom, Bool.and_eq_true, decide_eq_true_eq, bne_iff_ne] at hm
    cases m' with
    | nil => exact absurd (h k) (by simpa [Memory.get] using hm.1.2)
    | cons c' m' =>
      obtain ⟨k', v'⟩ := c'
      simp only [Memory.wfFrom, Bool.and_eq_true, decide_eq_true_eq, bne_iff_ne] at hm'
      have hk : k = k' := by
        rcases Nat.lt_trichotomy k k' with hlt | heq | hgt
        · have := h k
          rw [Memory.get, if_pos rfl, Memory.get, if_neg (by omega), memory_get_below m' _ k hm'.2 (by omega)] at this
          exact absurd this hm.1.2
        · exact heq
        · have := (h k').symm
          rw [Memory.get, if_pos rfl, Memory.get, if_neg (by omega), memory_get_below m _ k' hm.2 (by omega)] at this
          exact absurd this hm'.1.2
      subst hk
      have hv : v = v' := by simpa [Memory.get] using h k
      subst hv
      congr 1
      refine ih m' (k + 1) hm.2 hm'.2 fun a => ?_
      by_cases ha : k = a
      · subst ha
        rw [memory_get_below m _ k hm.2 (by omega), memory_get_below m' _ k hm'.2 (by omega)]
      · simpa [Memory.get, ha] using h a

end Sys2Proof.Machine
end

