-- ==== Sys2Proof/Laws/State.lean ====
section
/-! SUPPORT. One lemma per field per update of State, all true by definition, so that no later proof unfolds an update. -/

namespace Sys2Proof.Machine.State

variable (s : State)

@[simp] theorem setA_a (v : Byte) : (s.setA v).a = v := rfl
@[simp] theorem setA_x (v : Byte) : (s.setA v).x = s.x := rfl
@[simp] theorem setA_y (v : Byte) : (s.setA v).y = s.y := rfl
@[simp] theorem setA_sp (v : Byte) : (s.setA v).sp = s.sp := rfl
@[simp] theorem setA_pc (v : Byte) : (s.setA v).pc = s.pc := rfl
@[simp] theorem setA_flags (v : Byte) : (s.setA v).flags = s.flags := rfl
@[simp] theorem setA_sw (v : Byte) : (s.setA v).sw = s.sw := rfl
@[simp] theorem setA_dirty (v : Byte) : (s.setA v).dirty = s.dirty := rfl
@[simp] theorem setA_icount (v : Byte) : (s.setA v).icount = s.icount := rfl
@[simp] theorem setA_breakpoint (v : Byte) : (s.setA v).breakpoint = s.breakpoint := rfl
@[simp] theorem setA_mem (v : Byte) : (s.setA v).mem = s.mem := rfl
@[simp] theorem setA_cfg (v : Byte) : (s.setA v).cfg = s.cfg := rfl
@[simp] theorem setA_draws (v : Byte) : (s.setA v).draws = s.draws := rfl

@[simp] theorem setX_a (v : Byte) : (s.setX v).a = s.a := rfl
@[simp] theorem setX_x (v : Byte) : (s.setX v).x = v := rfl
@[simp] theorem setX_y (v : Byte) : (s.setX v).y = s.y := rfl
@[simp] theorem setX_sp (v : Byte) : (s.setX v).sp = s.sp := rfl
@[simp] theorem setX_pc (v : Byte) : (s.setX v).pc = s.pc := rfl
@[simp] theorem setX_flags (v : Byte) : (s.setX v).flags = s.flags := rfl
@[simp] theorem setX_sw (v : Byte) : (s.setX v).sw = s.sw := rfl
@[simp] theorem setX_dirty (v : Byte) : (s.setX v).dirty = s.dirty := rfl
@[simp] theorem setX_icount (v : Byte) : (s.setX v).icount = s.icount := rfl
@[simp] theorem setX_breakpoint (v : Byte) : (s.setX v).breakpoint = s.breakpoint := rfl
@[simp] theorem setX_mem (v : Byte) : (s.setX v).mem = s.mem := rfl
@[simp] theorem setX_cfg (v : Byte) : (s.setX v).cfg = s.cfg := rfl
@[simp] theorem setX_draws (v : Byte) : (s.setX v).draws = s.draws := rfl

@[simp] theorem setY_a (v : Byte) : (s.setY v).a = s.a := rfl
@[simp] theorem setY_x (v : Byte) : (s.setY v).x = s.x := rfl
@[simp] theorem setY_y (v : Byte) : (s.setY v).y = v := rfl
@[simp] theorem setY_sp (v : Byte) : (s.setY v).sp = s.sp := rfl
@[simp] theorem setY_pc (v : Byte) : (s.setY v).pc = s.pc := rfl
@[simp] theorem setY_flags (v : Byte) : (s.setY v).flags = s.flags := rfl
@[simp] theorem setY_sw (v : Byte) : (s.setY v).sw = s.sw := rfl
@[simp] theorem setY_dirty (v : Byte) : (s.setY v).dirty = s.dirty := rfl
@[simp] theorem setY_icount (v : Byte) : (s.setY v).icount = s.icount := rfl
@[simp] theorem setY_breakpoint (v : Byte) : (s.setY v).breakpoint = s.breakpoint := rfl
@[simp] theorem setY_mem (v : Byte) : (s.setY v).mem = s.mem := rfl
@[simp] theorem setY_cfg (v : Byte) : (s.setY v).cfg = s.cfg := rfl
@[simp] theorem setY_draws (v : Byte) : (s.setY v).draws = s.draws := rfl

@[simp] theorem setSp_a (v : Byte) : (s.setSp v).a = s.a := rfl
@[simp] theorem setSp_x (v : Byte) : (s.setSp v).x = s.x := rfl
@[simp] theorem setSp_y (v : Byte) : (s.setSp v).y = s.y := rfl
@[simp] theorem setSp_sp (v : Byte) : (s.setSp v).sp = v := rfl
@[simp] theorem setSp_pc (v : Byte) : (s.setSp v).pc = s.pc := rfl
@[simp] theorem setSp_flags (v : Byte) : (s.setSp v).flags = s.flags := rfl
@[simp] theorem setSp_sw (v : Byte) : (s.setSp v).sw = s.sw := rfl
@[simp] theorem setSp_dirty (v : Byte) : (s.setSp v).dirty = s.dirty := rfl
@[simp] theorem setSp_icount (v : Byte) : (s.setSp v).icount = s.icount := rfl
@[simp] theorem setSp_breakpoint (v : Byte) : (s.setSp v).breakpoint = s.breakpoint := rfl
@[simp] theorem setSp_mem (v : Byte) : (s.setSp v).mem = s.mem := rfl
@[simp] theorem setSp_cfg (v : Byte) : (s.setSp v).cfg = s.cfg := rfl
@[simp] theorem setSp_draws (v : Byte) : (s.setSp v).draws = s.draws := rfl

@[simp] theorem setPc_a (v : Addr) : (s.setPc v).a = s.a := rfl
@[simp] theorem setPc_x (v : Addr) : (s.setPc v).x = s.x := rfl
@[simp] theorem setPc_y (v : Addr) : (s.setPc v).y = s.y := rfl
@[simp] theorem setPc_sp (v : Addr) : (s.setPc v).sp = s.sp := rfl
@[simp] theorem setPc_pc (v : Addr) : (s.setPc v).pc = v := rfl
@[simp] theorem setPc_flags (v : Addr) : (s.setPc v).flags = s.flags := rfl
@[simp] theorem setPc_sw (v : Addr) : (s.setPc v).sw = s.sw := rfl
@[simp] theorem setPc_dirty (v : Addr) : (s.setPc v).dirty = s.dirty := rfl
@[simp] theorem setPc_icount (v : Addr) : (s.setPc v).icount = s.icount := rfl
@[simp] theorem setPc_breakpoint (v : Addr) : (s.setPc v).breakpoint = s.breakpoint := rfl
@[simp] theorem setPc_mem (v : Addr) : (s.setPc v).mem = s.mem := rfl
@[simp] theorem setPc_cfg (v : Addr) : (s.setPc v).cfg = s.cfg := rfl
@[simp] theorem setPc_draws (v : Addr) : (s.setPc v).draws = s.draws := rfl

@[simp] theorem setFlags_a (v : Flags) : (s.setFlags v).a = s.a := rfl
@[simp] theorem setFlags_x (v : Flags) : (s.setFlags v).x = s.x := rfl
@[simp] theorem setFlags_y (v : Flags) : (s.setFlags v).y = s.y := rfl
@[simp] theorem setFlags_sp (v : Flags) : (s.setFlags v).sp = s.sp := rfl
@[simp] theorem setFlags_pc (v : Flags) : (s.setFlags v).pc = s.pc := rfl
@[simp] theorem setFlags_flags (v : Flags) : (s.setFlags v).flags = v := rfl
@[simp] theorem setFlags_sw (v : Flags) : (s.setFlags v).sw = s.sw := rfl
@[simp] theorem setFlags_dirty (v : Flags) : (s.setFlags v).dirty = s.dirty := rfl
@[simp] theorem setFlags_icount (v : Flags) : (s.setFlags v).icount = s.icount := rfl
@[simp] theorem setFlags_breakpoint (v : Flags) : (s.setFlags v).breakpoint = s.breakpoint := rfl
@[simp] theorem setFlags_mem (v : Flags) : (s.setFlags v).mem = s.mem := rfl
@[simp] theorem setFlags_cfg (v : Flags) : (s.setFlags v).cfg = s.cfg := rfl
@[simp] theorem setFlags_draws (v : Flags) : (s.setFlags v).draws = s.draws := rfl

@[simp] theorem setSw_a (v : Switches) : (s.setSw v).a = s.a := rfl
@[simp] theorem setSw_x (v : Switches) : (s.setSw v).x = s.x := rfl
@[simp] theorem setSw_y (v : Switches) : (s.setSw v).y = s.y := rfl
@[simp] theorem setSw_sp (v : Switches) : (s.setSw v).sp = s.sp := rfl
@[simp] theorem setSw_pc (v : Switches) : (s.setSw v).pc = s.pc := rfl
@[simp] theorem setSw_flags (v : Switches) : (s.setSw v).flags = s.flags := rfl
@[simp] theorem setSw_sw (v : Switches) : (s.setSw v).sw = v := rfl
@[simp] theorem setSw_dirty (v : Switches) : (s.setSw v).dirty = s.dirty := rfl
@[simp] theorem setSw_icount (v : Switches) : (s.setSw v).icount = s.icount := rfl
@[simp] theorem setSw_breakpoint (v : Switches) : (s.setSw v).breakpoint = s.breakpoint := rfl
@[simp] theorem setSw_mem (v : Switches) : (s.setSw v).mem = s.mem := rfl
@[simp] theorem setSw_cfg (v : Switches) : (s.setSw v).cfg = s.cfg := rfl
@[simp] theorem setSw_draws (v : Switches) : (s.setSw v).draws = s.draws := rfl

@[simp] theorem setDirty_a (v : Bool) : (s.setDirty v).a = s.a := rfl
@[simp] theorem setDirty_x (v : Bool) : (s.setDirty v).x = s.x := rfl
@[simp] theorem setDirty_y (v : Bool) : (s.setDirty v).y = s.y := rfl
@[simp] theorem setDirty_sp (v : Bool) : (s.setDirty v).sp = s.sp := rfl
@[simp] theorem setDirty_pc (v : Bool) : (s.setDirty v).pc = s.pc := rfl
@[simp] theorem setDirty_flags (v : Bool) : (s.setDirty v).flags = s.flags := rfl
@[simp] theorem setDirty_sw (v : Bool) : (s.setDirty v).sw = s.sw := rfl
@[simp] theorem setDirty_dirty (v : Bool) : (s.setDirty v).dirty = v := rfl
@[simp] theorem setDirty_icount (v : Bool) : (s.setDirty v).icount = s.icount := rfl
@[simp] theorem setDirty_breakpoint (v : Bool) : (s.setDirty v).breakpoint = s.breakpoint := rfl
@[simp] theorem setDirty_mem (v : Bool) : (s.setDirty v).mem = s.mem := rfl
@[simp] theorem setDirty_cfg (v : Bool) : (s.setDirty v).cfg = s.cfg := rfl
@[simp] theorem setDirty_draws (v : Bool) : (s.setDirty v).draws = s.draws := rfl

@[simp] theorem setIcount_a (v : Nat) : (s.setIcount v).a = s.a := rfl
@[simp] theorem setIcount_x (v : Nat) : (s.setIcount v).x = s.x := rfl
@[simp] theorem setIcount_y (v : Nat) : (s.setIcount v).y = s.y := rfl
@[simp] theorem setIcount_sp (v : Nat) : (s.setIcount v).sp = s.sp := rfl
@[simp] theorem setIcount_pc (v : Nat) : (s.setIcount v).pc = s.pc := rfl
@[simp] theorem setIcount_flags (v : Nat) : (s.setIcount v).flags = s.flags := rfl
@[simp] theorem setIcount_sw (v : Nat) : (s.setIcount v).sw = s.sw := rfl
@[simp] theorem setIcount_dirty (v : Nat) : (s.setIcount v).dirty = s.dirty := rfl
@[simp] theorem setIcount_icount (v : Nat) : (s.setIcount v).icount = v := rfl
@[simp] theorem setIcount_breakpoint (v : Nat) : (s.setIcount v).breakpoint = s.breakpoint := rfl
@[simp] theorem setIcount_mem (v : Nat) : (s.setIcount v).mem = s.mem := rfl
@[simp] theorem setIcount_cfg (v : Nat) : (s.setIcount v).cfg = s.cfg := rfl
@[simp] theorem setIcount_draws (v : Nat) : (s.setIcount v).draws = s.draws := rfl

@[simp] theorem setBreakpoint_a (v : Option Nat) : (s.setBreakpoint v).a = s.a := rfl
@[simp] theorem setBreakpoint_x (v : Option Nat) : (s.setBreakpoint v).x = s.x := rfl
@[simp] theorem setBreakpoint_y (v : Option Nat) : (s.setBreakpoint v).y = s.y := rfl
@[simp] theorem setBreakpoint_sp (v : Option Nat) : (s.setBreakpoint v).sp = s.sp := rfl
@[simp] theorem setBreakpoint_pc (v : Option Nat) : (s.setBreakpoint v).pc = s.pc := rfl
@[simp] theorem setBreakpoint_flags (v : Option Nat) : (s.setBreakpoint v).flags = s.flags := rfl
@[simp] theorem setBreakpoint_sw (v : Option Nat) : (s.setBreakpoint v).sw = s.sw := rfl
@[simp] theorem setBreakpoint_dirty (v : Option Nat) : (s.setBreakpoint v).dirty = s.dirty := rfl
@[simp] theorem setBreakpoint_icount (v : Option Nat) : (s.setBreakpoint v).icount = s.icount := rfl
@[simp] theorem setBreakpoint_breakpoint (v : Option Nat) : (s.setBreakpoint v).breakpoint = v := rfl
@[simp] theorem setBreakpoint_mem (v : Option Nat) : (s.setBreakpoint v).mem = s.mem := rfl
@[simp] theorem setBreakpoint_cfg (v : Option Nat) : (s.setBreakpoint v).cfg = s.cfg := rfl
@[simp] theorem setBreakpoint_draws (v : Option Nat) : (s.setBreakpoint v).draws = s.draws := rfl

@[simp] theorem setMem_a (v : Memory) : (s.setMem v).a = s.a := rfl
@[simp] theorem setMem_x (v : Memory) : (s.setMem v).x = s.x := rfl
@[simp] theorem setMem_y (v : Memory) : (s.setMem v).y = s.y := rfl
@[simp] theorem setMem_sp (v : Memory) : (s.setMem v).sp = s.sp := rfl
@[simp] theorem setMem_pc (v : Memory) : (s.setMem v).pc = s.pc := rfl
@[simp] theorem setMem_flags (v : Memory) : (s.setMem v).flags = s.flags := rfl
@[simp] theorem setMem_sw (v : Memory) : (s.setMem v).sw = s.sw := rfl
@[simp] theorem setMem_dirty (v : Memory) : (s.setMem v).dirty = s.dirty := rfl
@[simp] theorem setMem_icount (v : Memory) : (s.setMem v).icount = s.icount := rfl
@[simp] theorem setMem_breakpoint (v : Memory) : (s.setMem v).breakpoint = s.breakpoint := rfl
@[simp] theorem setMem_mem (v : Memory) : (s.setMem v).mem = v := rfl
@[simp] theorem setMem_cfg (v : Memory) : (s.setMem v).cfg = s.cfg := rfl
@[simp] theorem setMem_draws (v : Memory) : (s.setMem v).draws = s.draws := rfl

@[simp] theorem setDraws_a (v : Nat) : (s.setDraws v).a = s.a := rfl
@[simp] theorem setDraws_x (v : Nat) : (s.setDraws v).x = s.x := rfl
@[simp] theorem setDraws_y (v : Nat) : (s.setDraws v).y = s.y := rfl
@[simp] theorem setDraws_sp (v : Nat) : (s.setDraws v).sp = s.sp := rfl
@[simp] theorem setDraws_pc (v : Nat) : (s.setDraws v).pc = s.pc := rfl
@[simp] theorem setDraws_flags (v : Nat) : (s.setDraws v).flags = s.flags := rfl
@[simp] theorem setDraws_sw (v : Nat) : (s.setDraws v).sw = s.sw := rfl
@[simp] theorem setDraws_dirty (v : Nat) : (s.setDraws v).dirty = s.dirty := rfl
@[simp] theorem setDraws_icount (v : Nat) : (s.setDraws v).icount = s.icount := rfl
@[simp] theorem setDraws_breakpoint (v : Nat) : (s.setDraws v).breakpoint = s.breakpoint := rfl
@[simp] theorem setDraws_mem (v : Nat) : (s.setDraws v).mem = s.mem := rfl
@[simp] theorem setDraws_cfg (v : Nat) : (s.setDraws v).cfg = s.cfg := rfl
@[simp] theorem setDraws_draws (v : Nat) : (s.setDraws v).draws = v := rfl

end Sys2Proof.Machine.State
end

