-- ==== Sys2Proof/Laws/Ops.lean ====
section
/-! SUPPORT. What the shared operations of Machine/Ops.lean change and leave alone. -/

namespace Sys2Proof.Machine

variable (s : State)

@[simp] theorem access_a (ea : Addr) : (access ea s).a = s.a := rfl
@[simp] theorem access_x (ea : Addr) : (access ea s).x = s.x := rfl
@[simp] theorem access_y (ea : Addr) : (access ea s).y = s.y := rfl
@[simp] theorem access_sp (ea : Addr) : (access ea s).sp = s.sp := rfl
@[simp] theorem access_pc (ea : Addr) : (access ea s).pc = s.pc := rfl
@[simp] theorem access_flags (ea : Addr) : (access ea s).flags = s.flags := rfl
@[simp] theorem access_dirty (ea : Addr) : (access ea s).dirty = s.dirty := rfl
@[simp] theorem access_icount (ea : Addr) : (access ea s).icount = s.icount := rfl
@[simp] theorem access_breakpoint (ea : Addr) : (access ea s).breakpoint = s.breakpoint := rfl
@[simp] theorem access_cfg (ea : Addr) : (access ea s).cfg = s.cfg := rfl
@[simp] theorem access_draws (ea : Addr) : (access ea s).draws = s.draws := rfl

@[simp] theorem store_a (a : Addr) (v : Byte) : (store a v s).a = s.a := rfl
@[simp] theorem store_x (a : Addr) (v : Byte) : (store a v s).x = s.x := rfl
@[simp] theorem store_y (a : Addr) (v : Byte) : (store a v s).y = s.y := rfl
@[simp] theorem store_sp (a : Addr) (v : Byte) : (store a v s).sp = s.sp := rfl
@[simp] theorem store_pc (a : Addr) (v : Byte) : (store a v s).pc = s.pc := rfl
@[simp] theorem store_flags (a : Addr) (v : Byte) : (store a v s).flags = s.flags := rfl
@[simp] theorem store_sw (a : Addr) (v : Byte) : (store a v s).sw = s.sw := rfl
@[simp] theorem store_icount (a : Addr) (v : Byte) : (store a v s).icount = s.icount := rfl
@[simp] theorem store_breakpoint (a : Addr) (v : Byte) : (store a v s).breakpoint = s.breakpoint := rfl
@[simp] theorem store_cfg (a : Addr) (v : Byte) : (store a v s).cfg = s.cfg := rfl
@[simp] theorem store_draws (a : Addr) (v : Byte) : (store a v s).draws = s.draws := rfl

@[simp] theorem push_a (v : Byte) : (push v s).a = s.a := rfl
@[simp] theorem push_x (v : Byte) : (push v s).x = s.x := rfl
@[simp] theorem push_y (v : Byte) : (push v s).y = s.y := rfl
@[simp] theorem push_pc (v : Byte) : (push v s).pc = s.pc := rfl
@[simp] theorem push_flags (v : Byte) : (push v s).flags = s.flags := rfl
@[simp] theorem push_sw (v : Byte) : (push v s).sw = s.sw := rfl
@[simp] theorem push_icount (v : Byte) : (push v s).icount = s.icount := rfl
@[simp] theorem push_breakpoint (v : Byte) : (push v s).breakpoint = s.breakpoint := rfl
@[simp] theorem push_cfg (v : Byte) : (push v s).cfg = s.cfg := rfl
@[simp] theorem push_draws (v : Byte) : (push v s).draws = s.draws := rfl

@[simp] theorem pushWord_a (w : Addr) : (pushWord w s).a = s.a := rfl
@[simp] theorem pushWord_x (w : Addr) : (pushWord w s).x = s.x := rfl
@[simp] theorem pushWord_y (w : Addr) : (pushWord w s).y = s.y := rfl
@[simp] theorem pushWord_pc (w : Addr) : (pushWord w s).pc = s.pc := rfl
@[simp] theorem pushWord_flags (w : Addr) : (pushWord w s).flags = s.flags := rfl
@[simp] theorem pushWord_sw (w : Addr) : (pushWord w s).sw = s.sw := rfl
@[simp] theorem pushWord_icount (w : Addr) : (pushWord w s).icount = s.icount := rfl
@[simp] theorem pushWord_breakpoint (w : Addr) : (pushWord w s).breakpoint = s.breakpoint := rfl
@[simp] theorem pushWord_cfg (w : Addr) : (pushWord w s).cfg = s.cfg := rfl
@[simp] theorem pushWord_draws (w : Addr) : (pushWord w s).draws = s.draws := rfl

@[simp] theorem afterPull_a  : (afterPull s).a = s.a := rfl
@[simp] theorem afterPull_x  : (afterPull s).x = s.x := rfl
@[simp] theorem afterPull_y  : (afterPull s).y = s.y := rfl
@[simp] theorem afterPull_pc  : (afterPull s).pc = s.pc := rfl
@[simp] theorem afterPull_flags  : (afterPull s).flags = s.flags := rfl
@[simp] theorem afterPull_sw  : (afterPull s).sw = s.sw := rfl
@[simp] theorem afterPull_dirty  : (afterPull s).dirty = s.dirty := rfl
@[simp] theorem afterPull_icount  : (afterPull s).icount = s.icount := rfl
@[simp] theorem afterPull_breakpoint  : (afterPull s).breakpoint = s.breakpoint := rfl
@[simp] theorem afterPull_mem  : (afterPull s).mem = s.mem := rfl
@[simp] theorem afterPull_cfg  : (afterPull s).cfg = s.cfg := rfl
@[simp] theorem afterPull_draws  : (afterPull s).draws = s.draws := rfl

@[simp] theorem afterPullWord_a  : (afterPullWord s).a = s.a := rfl
@[simp] theorem afterPullWord_x  : (afterPullWord s).x = s.x := rfl
@[simp] theorem afterPullWord_y  : (afterPullWord s).y = s.y := rfl
@[simp] theorem afterPullWord_pc  : (afterPullWord s).pc = s.pc := rfl
@[simp] theorem afterPullWord_flags  : (afterPullWord s).flags = s.flags := rfl
@[simp] theorem afterPullWord_sw  : (afterPullWord s).sw = s.sw := rfl
@[simp] theorem afterPullWord_dirty  : (afterPullWord s).dirty = s.dirty := rfl
@[simp] theorem afterPullWord_icount  : (afterPullWord s).icount = s.icount := rfl
@[simp] theorem afterPullWord_breakpoint  : (afterPullWord s).breakpoint = s.breakpoint := rfl
@[simp] theorem afterPullWord_mem  : (afterPullWord s).mem = s.mem := rfl
@[simp] theorem afterPullWord_cfg  : (afterPullWord s).cfg = s.cfg := rfl
@[simp] theorem afterPullWord_draws  : (afterPullWord s).draws = s.draws := rfl

@[simp] theorem advance_a (n : Nat) : (advance n s).a = s.a := rfl
@[simp] theorem advance_x (n : Nat) : (advance n s).x = s.x := rfl
@[simp] theorem advance_y (n : Nat) : (advance n s).y = s.y := rfl
@[simp] theorem advance_sp (n : Nat) : (advance n s).sp = s.sp := rfl
@[simp] theorem advance_flags (n : Nat) : (advance n s).flags = s.flags := rfl
@[simp] theorem advance_sw (n : Nat) : (advance n s).sw = s.sw := rfl
@[simp] theorem advance_dirty (n : Nat) : (advance n s).dirty = s.dirty := rfl
@[simp] theorem advance_icount (n : Nat) : (advance n s).icount = s.icount := rfl
@[simp] theorem advance_breakpoint (n : Nat) : (advance n s).breakpoint = s.breakpoint := rfl
@[simp] theorem advance_mem (n : Nat) : (advance n s).mem = s.mem := rfl
@[simp] theorem advance_cfg (n : Nat) : (advance n s).cfg = s.cfg := rfl
@[simp] theorem advance_draws (n : Nat) : (advance n s).draws = s.draws := rfl

@[simp] theorem access_sw (ea : Addr) : (access ea s).sw = switchesAfter s.cfg ea s.sw := rfl
@[simp] theorem access_mem (ea : Addr) : (access ea s).mem = memAfter s.cfg ea s.mem := rfl
@[simp] theorem store_dirty (a : Addr) (v : Byte) : (store a v s).dirty = (s.dirty || inVideo s.cfg a) := rfl
@[simp] theorem push_sp (v : Byte) : (push v s).sp = s.sp - 1 := rfl
@[simp] theorem push_mem (v : Byte) : (push v s).mem = (store (stackAddr s.sp) v s).mem := rfl
@[simp] theorem push_dirty (v : Byte) : (push v s).dirty = (s.dirty || inVideo s.cfg (stackAddr s.sp)) := rfl
@[simp] theorem pushWord_sp (w : Addr) : (pushWord w s).sp = s.sp - 1 - 1 := rfl
@[simp] theorem afterPullWord_sp : (afterPullWord s).sp = s.sp + 1 + 1 := rfl
@[simp] theorem afterPull_sp : (afterPull s).sp = s.sp + 1 := rfl
@[simp] theorem advance_pc (n : Nat) : (advance n s).pc = s.pc + BitVec.ofNat 16 n := rfl

/-- Every byte after a store (R56, R61). -/
theorem store_read (a b : Addr) (v : Byte) :
    (store a v s).mem.read b = if b = a ∧ a.toNat < s.cfg.romBoundary.val then v else s.mem.read b := by
  simp only [store, State.setMem_mem]
  split_ifs <;> simp_all

/-- A store changes no byte at or above the ROM boundary (R56). -/
theorem store_read_rom (a b : Addr) (v : Byte) (h : s.cfg.romBoundary.val ≤ b.toNat) :
    (store a v s).mem.read b = s.mem.read b := by
  rw [store_read, if_neg]
  rintro ⟨rfl, h'⟩
  omega

/-- Every byte after a push (R63). -/
theorem push_read (b : Addr) (v : Byte) : (push v s).mem.read b =
    if b = stackAddr s.sp ∧ (stackAddr s.sp).toNat < s.cfg.romBoundary.val then v else s.mem.read b := by
  simp [store_read]

/-- A store keeps the canonical form of memory. -/
theorem store_wf (a : Addr) (v : Byte) (h : s.mem.wf = true) : (store a v s).mem.wf = true := by
  simp only [store, State.setMem_mem]
  split_ifs
  · exact memory_wf_write _ _ _ h
  · exact h

theorem push_wf (v : Byte) (h : s.mem.wf = true) : (push v s).mem.wf = true := store_wf _ _ _ h

theorem pushWord_wf (w : Addr) (h : s.mem.wf = true) : (pushWord w s).mem.wf = true := push_wf _ _ (push_wf _ _ h)

/-- Every byte after an access: only bit 7 of `KBD_DATA` can change, and only from the strobe window (R59). -/
theorem memAfter_read (cfg : Config) (ea b : Addr) (m : Memory) :
    (memAfter cfg ea m).read b = if inStrobe cfg ea ∧ b = kbdData then m.read kbdData &&& 0x7F else m.read b := by
  simp only [memAfter]
  split_ifs <;> simp_all

/-- An access keeps the canonical form of memory. -/
theorem memAfter_wf (cfg : Config) (ea : Addr) (m : Memory) (h : m.wf = true) : (memAfter cfg ea m).wf = true := by
  simp only [memAfter]
  split_ifs
  · exact memory_wf_write _ _ _ h
  · exact h

/-- An access to an address that is not intercepted does nothing (R57, R62). -/
theorem access_plain (ea : Addr) (h : intercepted s.cfg ea = false) : access ea s = s := by
  simp only [intercepted, Bool.or_eq_false_iff, Option.isSome_eq_false_iff, Option.isNone_iff_eq_none] at h
  simp [access, switchesAfter, memAfter, h, State.setSw, State.setMem]

@[simp] theorem enterTrap_a (ret : Addr) : (enterTrap ret s).a = s.a := by simp [enterTrap]
@[simp] theorem enterTrap_x (ret : Addr) : (enterTrap ret s).x = s.x := by simp [enterTrap]
@[simp] theorem enterTrap_y (ret : Addr) : (enterTrap ret s).y = s.y := by simp [enterTrap]
@[simp] theorem enterTrap_sp (ret : Addr) : (enterTrap ret s).sp = s.sp - 1 - 1 - 1 := by simp [enterTrap]
@[simp] theorem enterTrap_flags (ret : Addr) : (enterTrap ret s).flags = { s.flags with i := true } := by simp [enterTrap]
@[simp] theorem enterTrap_sw (ret : Addr) : (enterTrap ret s).sw = s.sw := by simp [enterTrap]
@[simp] theorem enterTrap_icount (ret : Addr) : (enterTrap ret s).icount = s.icount := by simp [enterTrap]
@[simp] theorem enterTrap_breakpoint (ret : Addr) : (enterTrap ret s).breakpoint = s.breakpoint := by simp [enterTrap]
@[simp] theorem enterTrap_draws (ret : Addr) : (enterTrap ret s).draws = s.draws := by simp [enterTrap]
@[simp] theorem enterTrap_mem (ret : Addr) :
    (enterTrap ret s).mem = (push (pushedStatus s.flags) (pushWord ret s)).mem := by simp [enterTrap]
@[simp] theorem enterTrap_pc (ret : Addr) : (enterTrap ret s).pc = (enterTrap ret s).mem.read16 brkVector := by
  simp [enterTrap]
@[simp] theorem enterTrap_cfg (ret : Addr) : (enterTrap ret s).cfg = s.cfg := by simp [enterTrap]

theorem enterTrap_wf (ret : Addr) (h : s.mem.wf = true) : (enterTrap ret s).mem.wf = true := by
  simpa [enterTrap] using push_wf _ _ (pushWord_wf _ _ h)

/-- The return changes `SP`, the flags other than `B`, and `PC`, and nothing else (R196). -/
theorem returnFromTrap_eq : returnFromTrap s =
    { s with sp := s.sp + 1 + 1 + 1, flags := unpackRti (pulled s) s.flags, pc := pulledWord (afterPull s) } := rfl

end Sys2Proof.Machine
end

