-- ==== Sys2Proof/Laws/Operands.lean ====
section
/-! SUPPORT. The shared shapes of Machine/Operands.lean: no address fails the range check, so each answers a next state on every
state, and this says which. -/

namespace Sys2Proof.Machine

variable (s : State)

/-- The range check never fails with 65536 bytes (20_memory.md R51). -/
theorem withAddr_eq (m : MemOperand) (k : Addr → State) : withAddr m s k = .next (k (effectiveAddr m s)) := by
  have h : ¬ (effectiveAddr m s).toNat ≥ memSize := by simp [memSize]; omega
  simp [withAddr, h]

theorem readOperand_eq (src : Source) (f : Byte → State → State) :
    readOperand src s f = .next (advance src.operand.mode.length (f (operandByte src s) (afterOperand src s))) := by
  cases src <;> simp [readOperand, withAddr_eq, operandByte, afterOperand, sourceLength]

theorem writeOperand_eq (m : MemOperand) (v : Byte) :
    writeOperand m v s =
      .next (advance m.mode.length (store (effectiveAddr m s) v (access (effectiveAddr m s) s))) := by
  simp [writeOperand, withAddr_eq, memLength]

theorem modifyTarget_acc (f : Byte → Flags → Byte × Flags) :
    modifyTarget .acc s f = .next (advance 1 ((s.setA (f s.a s.flags).1).setFlags (f s.a s.flags).2)) := rfl

theorem modifyTarget_mem (m : MemOperand) (f : Byte → Flags → Byte × Flags) :
    modifyTarget (.mem m) s f =
      .next (advance m.mode.length
        ((store (effectiveAddr m s) (f (loaded (effectiveAddr m s) s) s.flags).1 (afterLoad (effectiveAddr m s) s)).setFlags
          (f (loaded (effectiveAddr m s) s) s.flags).2)) := by
  simp [modifyTarget, withAddr_eq, memLength]

@[simp] theorem afterLoad_sw (ea : Addr) : (afterLoad ea s).sw = switchesAfter s.cfg ea s.sw := rfl
@[simp] theorem afterLoad_mem (ea : Addr) : (afterLoad ea s).mem = memAfter s.cfg ea s.mem := rfl
@[simp] theorem afterLoad_a (ea : Addr) : (afterLoad ea s).a = s.a := rfl
@[simp] theorem afterLoad_x (ea : Addr) : (afterLoad ea s).x = s.x := rfl
@[simp] theorem afterLoad_y (ea : Addr) : (afterLoad ea s).y = s.y := rfl
@[simp] theorem afterLoad_sp (ea : Addr) : (afterLoad ea s).sp = s.sp := rfl
@[simp] theorem afterLoad_pc (ea : Addr) : (afterLoad ea s).pc = s.pc := rfl
@[simp] theorem afterLoad_flags (ea : Addr) : (afterLoad ea s).flags = s.flags := rfl
@[simp] theorem afterLoad_dirty (ea : Addr) : (afterLoad ea s).dirty = s.dirty := rfl
@[simp] theorem afterLoad_icount (ea : Addr) : (afterLoad ea s).icount = s.icount := rfl
@[simp] theorem afterLoad_breakpoint (ea : Addr) : (afterLoad ea s).breakpoint = s.breakpoint := rfl
@[simp] theorem afterLoad_cfg (ea : Addr) : (afterLoad ea s).cfg = s.cfg := rfl
@[simp] theorem afterOperand_a (src : Source) : (afterOperand src s).a = s.a := by cases src <;> rfl
@[simp] theorem afterOperand_x (src : Source) : (afterOperand src s).x = s.x := by cases src <;> rfl
@[simp] theorem afterOperand_y (src : Source) : (afterOperand src s).y = s.y := by cases src <;> rfl
@[simp] theorem afterOperand_sp (src : Source) : (afterOperand src s).sp = s.sp := by cases src <;> rfl
@[simp] theorem afterOperand_pc (src : Source) : (afterOperand src s).pc = s.pc := by cases src <;> rfl
@[simp] theorem afterOperand_flags (src : Source) : (afterOperand src s).flags = s.flags := by cases src <;> rfl
@[simp] theorem afterOperand_dirty (src : Source) : (afterOperand src s).dirty = s.dirty := by cases src <;> rfl
@[simp] theorem afterOperand_icount (src : Source) : (afterOperand src s).icount = s.icount := by cases src <;> rfl
@[simp] theorem afterOperand_breakpoint (src : Source) : (afterOperand src s).breakpoint = s.breakpoint := by cases src <;> rfl
@[simp] theorem afterOperand_cfg (src : Source) : (afterOperand src s).cfg = s.cfg := by cases src <;> rfl

/-- Reading a source keeps the canonical form of memory. -/
theorem afterOperand_wf (src : Source) (h : s.mem.wf = true) : (afterOperand src s).mem.wf = true := by
  cases src
  · exact h
  · exact memAfter_wf _ _ _ h

/-- Draws are only used up. -/
theorem afterLoad_draws_le (ea : Addr) : s.draws ≤ (afterLoad ea s).draws := by
  simp only [afterLoad, State.setDraws_draws]
  split <;> omega

theorem afterOperand_draws_le (src : Source) : s.draws ≤ (afterOperand src s).draws := by
  cases src
  · exact Nat.le_refl _
  · exact afterLoad_draws_le ..

/-- A read outside the race gives the byte of memory, which the access leaves alone unless it is `KBD_DATA` (R60). -/
theorem loaded_plain (ea : Addr) (h : strobeRace ea s = false) : loaded ea s = s.mem.read ea := by
  simp only [loaded, h, Bool.false_and, Bool.false_eq_true, if_false, access_mem, memAfter_read]
  simp only [strobeRace, Bool.and_eq_false_iff, beq_eq_false_iff_ne] at h
  split_ifs with h1
  · obtain ⟨h1, rfl⟩ := h1
    simp [h1] at h
  · rfl

end Sys2Proof.Machine
end

