-- ==== Sys2Proof/Laws/Exec.lean ====
section
/-! SUPPORT. What the instructions of each mnemonic are: with several formats, in terms of the operation they share; with one, by name.
A later proof splits on the mnemonic and cites these, and does not go through the 151 constructors. -/

namespace Sys2Proof.Machine

variable {i : Instr}

theorem exec_LDA (h : i.mnemonic = .LDA) :
    ∃ src : Source, i.operand = src.operand ∧ ∀ s, exec i s = doLda src s := by
  cases i <;> first | (cases h; done) | exact ⟨.imm _, rfl, fun _ => by rfl⟩ | exact ⟨.mem _, rfl, fun _ => by rfl⟩

theorem exec_LDX (h : i.mnemonic = .LDX) :
    ∃ src : Source, i.operand = src.operand ∧ ∀ s, exec i s = doLdx src s := by
  cases i <;> first | (cases h; done) | exact ⟨.imm _, rfl, fun _ => by rfl⟩ | exact ⟨.mem _, rfl, fun _ => by rfl⟩

theorem exec_LDY (h : i.mnemonic = .LDY) :
    ∃ src : Source, i.operand = src.operand ∧ ∀ s, exec i s = doLdy src s := by
  cases i <;> first | (cases h; done) | exact ⟨.imm _, rfl, fun _ => by rfl⟩ | exact ⟨.mem _, rfl, fun _ => by rfl⟩

theorem exec_ADC (h : i.mnemonic = .ADC) :
    ∃ src : Source, i.operand = src.operand ∧ ∀ s, exec i s = doAdc src s := by
  cases i <;> first | (cases h; done) | exact ⟨.imm _, rfl, fun _ => by rfl⟩ | exact ⟨.mem _, rfl, fun _ => by rfl⟩

theorem exec_SBC (h : i.mnemonic = .SBC) :
    ∃ src : Source, i.operand = src.operand ∧ ∀ s, exec i s = doSbc src s := by
  cases i <;> first | (cases h; done) | exact ⟨.imm _, rfl, fun _ => by rfl⟩ | exact ⟨.mem _, rfl, fun _ => by rfl⟩

theorem exec_AND (h : i.mnemonic = .AND) :
    ∃ src : Source, i.operand = src.operand ∧ ∀ s, exec i s = doAnd src s := by
  cases i <;> first | (cases h; done) | exact ⟨.imm _, rfl, fun _ => by rfl⟩ | exact ⟨.mem _, rfl, fun _ => by rfl⟩

theorem exec_ORA (h : i.mnemonic = .ORA) :
    ∃ src : Source, i.operand = src.operand ∧ ∀ s, exec i s = doOra src s := by
  cases i <;> first | (cases h; done) | exact ⟨.imm _, rfl, fun _ => by rfl⟩ | exact ⟨.mem _, rfl, fun _ => by rfl⟩

theorem exec_EOR (h : i.mnemonic = .EOR) :
    ∃ src : Source, i.operand = src.operand ∧ ∀ s, exec i s = doEor src s := by
  cases i <;> first | (cases h; done) | exact ⟨.imm _, rfl, fun _ => by rfl⟩ | exact ⟨.mem _, rfl, fun _ => by rfl⟩

theorem exec_CMP (h : i.mnemonic = .CMP) :
    ∃ src : Source, i.operand = src.operand ∧ ∀ s, exec i s = compareWith s.a src s := by
  cases i <;> first | (cases h; done) | exact ⟨.imm _, rfl, fun _ => by rfl⟩ | exact ⟨.mem _, rfl, fun _ => by rfl⟩

theorem exec_CPX (h : i.mnemonic = .CPX) :
    ∃ src : Source, i.operand = src.operand ∧ ∀ s, exec i s = compareWith s.x src s := by
  cases i <;> first | (cases h; done) | exact ⟨.imm _, rfl, fun _ => by rfl⟩ | exact ⟨.mem _, rfl, fun _ => by rfl⟩

theorem exec_CPY (h : i.mnemonic = .CPY) :
    ∃ src : Source, i.operand = src.operand ∧ ∀ s, exec i s = compareWith s.y src s := by
  cases i <;> first | (cases h; done) | exact ⟨.imm _, rfl, fun _ => by rfl⟩ | exact ⟨.mem _, rfl, fun _ => by rfl⟩

theorem exec_BIT (h : i.mnemonic = .BIT) :
    ∃ src : Source, i.operand = src.operand ∧ ∀ s, exec i s = doBit src s := by
  cases i <;> first | (cases h; done) | exact ⟨.imm _, rfl, fun _ => by rfl⟩ | exact ⟨.mem _, rfl, fun _ => by rfl⟩

theorem exec_STA (h : i.mnemonic = .STA) :
    ∃ m, i.operand = .memory m ∧ ∀ s, exec i s = writeOperand m s.a s := by
  cases i <;> first | (cases h; done) | exact ⟨_, rfl, fun _ => by rfl⟩

theorem exec_STX (h : i.mnemonic = .STX) :
    ∃ m, i.operand = .memory m ∧ ∀ s, exec i s = writeOperand m s.x s := by
  cases i <;> first | (cases h; done) | exact ⟨_, rfl, fun _ => by rfl⟩

theorem exec_STY (h : i.mnemonic = .STY) :
    ∃ m, i.operand = .memory m ∧ ∀ s, exec i s = writeOperand m s.y s := by
  cases i <;> first | (cases h; done) | exact ⟨_, rfl, fun _ => by rfl⟩

theorem exec_ASL (h : i.mnemonic = .ASL) :
    ∃ tgt : Target, i.operand = tgt.operand ∧ ∀ s, exec i s = modifyTarget tgt s aluAsl := by
  cases i <;> first | (cases h; done) | exact ⟨.acc, rfl, fun _ => by rfl⟩ | exact ⟨.mem _, rfl, fun _ => by rfl⟩

theorem exec_LSR (h : i.mnemonic = .LSR) :
    ∃ tgt : Target, i.operand = tgt.operand ∧ ∀ s, exec i s = modifyTarget tgt s aluLsr := by
  cases i <;> first | (cases h; done) | exact ⟨.acc, rfl, fun _ => by rfl⟩ | exact ⟨.mem _, rfl, fun _ => by rfl⟩

theorem exec_ROL (h : i.mnemonic = .ROL) :
    ∃ tgt : Target, i.operand = tgt.operand ∧ ∀ s, exec i s = modifyTarget tgt s aluRol := by
  cases i <;> first | (cases h; done) | exact ⟨.acc, rfl, fun _ => by rfl⟩ | exact ⟨.mem _, rfl, fun _ => by rfl⟩

theorem exec_ROR (h : i.mnemonic = .ROR) :
    ∃ tgt : Target, i.operand = tgt.operand ∧ ∀ s, exec i s = modifyTarget tgt s aluRor := by
  cases i <;> first | (cases h; done) | exact ⟨.acc, rfl, fun _ => by rfl⟩ | exact ⟨.mem _, rfl, fun _ => by rfl⟩

theorem exec_INC (h : i.mnemonic = .INC) :
    ∃ m, i.operand = .memory m ∧ ∀ s, exec i s = modifyTarget (.mem m) s aluInc := by
  cases i <;> first | (cases h; done) | exact ⟨_, rfl, fun _ => by rfl⟩

theorem exec_DEC (h : i.mnemonic = .DEC) :
    ∃ m, i.operand = .memory m ∧ ∀ s, exec i s = modifyTarget (.mem m) s aluDec := by
  cases i <;> first | (cases h; done) | exact ⟨_, rfl, fun _ => by rfl⟩

/-! The mnemonics with one format each, and JMP. -/

theorem only_INX (h : i.mnemonic = .INX) : i = .inx := by
  cases i <;> first | (cases h; done) | rfl

theorem only_INY (h : i.mnemonic = .INY) : i = .iny := by
  cases i <;> first | (cases h; done) | rfl

theorem only_DEX (h : i.mnemonic = .DEX) : i = .dex := by
  cases i <;> first | (cases h; done) | rfl

theorem only_DEY (h : i.mnemonic = .DEY) : i = .dey := by
  cases i <;> first | (cases h; done) | rfl

theorem only_TAX (h : i.mnemonic = .TAX) : i = .tax := by
  cases i <;> first | (cases h; done) | rfl

theorem only_TAY (h : i.mnemonic = .TAY) : i = .tay := by
  cases i <;> first | (cases h; done) | rfl

theorem only_TXA (h : i.mnemonic = .TXA) : i = .txa := by
  cases i <;> first | (cases h; done) | rfl

theorem only_TYA (h : i.mnemonic = .TYA) : i = .tya := by
  cases i <;> first | (cases h; done) | rfl

theorem only_TSX (h : i.mnemonic = .TSX) : i = .tsx := by
  cases i <;> first | (cases h; done) | rfl

theorem only_TXS (h : i.mnemonic = .TXS) : i = .txs := by
  cases i <;> first | (cases h; done) | rfl

theorem only_PHA (h : i.mnemonic = .PHA) : i = .pha := by
  cases i <;> first | (cases h; done) | rfl

theorem only_PLA (h : i.mnemonic = .PLA) : i = .pla := by
  cases i <;> first | (cases h; done) | rfl

theorem only_PHP (h : i.mnemonic = .PHP) : i = .php := by
  cases i <;> first | (cases h; done) | rfl

theorem only_PLP (h : i.mnemonic = .PLP) : i = .plp := by
  cases i <;> first | (cases h; done) | rfl

theorem only_JMP (h : i.mnemonic = .JMP) : (∃ w, i = .jmpAbs w) ∨ ∃ p, i = .jmpInd p := by
  cases i <;> first | (cases h; done) | exact .inl ⟨_, rfl⟩ | exact .inr ⟨_, rfl⟩

theorem only_JSR (h : i.mnemonic = .JSR) : ∃ w, i = .jsr w := by
  cases i <;> first | (cases h; done) | exact ⟨_, rfl⟩

theorem only_RTS (h : i.mnemonic = .RTS) : i = .rts := by
  cases i <;> first | (cases h; done) | rfl

theorem only_BRK (h : i.mnemonic = .BRK) : ∃ pad, i = .brk pad := by
  cases i <;> first | (cases h; done) | exact ⟨_, rfl⟩

theorem only_RTI (h : i.mnemonic = .RTI) : i = .rti := by
  cases i <;> first | (cases h; done) | rfl

theorem only_BCC (h : i.mnemonic = .BCC) : ∃ d, i = .bcc d := by
  cases i <;> first | (cases h; done) | exact ⟨_, rfl⟩

theorem only_BCS (h : i.mnemonic = .BCS) : ∃ d, i = .bcs d := by
  cases i <;> first | (cases h; done) | exact ⟨_, rfl⟩

theorem only_BEQ (h : i.mnemonic = .BEQ) : ∃ d, i = .beq d := by
  cases i <;> first | (cases h; done) | exact ⟨_, rfl⟩

theorem only_BMI (h : i.mnemonic = .BMI) : ∃ d, i = .bmi d := by
  cases i <;> first | (cases h; done) | exact ⟨_, rfl⟩

theorem only_BNE (h : i.mnemonic = .BNE) : ∃ d, i = .bne d := by
  cases i <;> first | (cases h; done) | exact ⟨_, rfl⟩

theorem only_BPL (h : i.mnemonic = .BPL) : ∃ d, i = .bpl d := by
  cases i <;> first | (cases h; done) | exact ⟨_, rfl⟩

theorem only_BVC (h : i.mnemonic = .BVC) : ∃ d, i = .bvc d := by
  cases i <;> first | (cases h; done) | exact ⟨_, rfl⟩

theorem only_BVS (h : i.mnemonic = .BVS) : ∃ d, i = .bvs d := by
  cases i <;> first | (cases h; done) | exact ⟨_, rfl⟩

theorem only_SEC (h : i.mnemonic = .SEC) : i = .sec := by
  cases i <;> first | (cases h; done) | rfl

theorem only_CLC (h : i.mnemonic = .CLC) : i = .clc := by
  cases i <;> first | (cases h; done) | rfl

theorem only_SED (h : i.mnemonic = .SED) : i = .sed := by
  cases i <;> first | (cases h; done) | rfl

theorem only_CLD (h : i.mnemonic = .CLD) : i = .cld := by
  cases i <;> first | (cases h; done) | rfl

theorem only_SEI (h : i.mnemonic = .SEI) : i = .sei := by
  cases i <;> first | (cases h; done) | rfl

theorem only_CLI (h : i.mnemonic = .CLI) : i = .cli := by
  cases i <;> first | (cases h; done) | rfl

theorem only_CLV (h : i.mnemonic = .CLV) : i = .clv := by
  cases i <;> first | (cases h; done) | rfl

theorem only_NOP (h : i.mnemonic = .NOP) : i = .nop := by
  cases i <;> first | (cases h; done) | rfl

end Sys2Proof.Machine
end

