-- ==== Sys2Proof/Laws/Flags.lean ====
section
/-! SUPPORT. What a decimal function of the configuration answers: by the default, or by the table of its values. -/

namespace Sys2Proof.Machine

variable {dflt f : Byte → Byte → Bool → Byte × Bool} {rule : BcdRule} {a m : Byte} {c : Bool}

/-- On valid operands the table plays no part. -/
theorem bcdConfigured_valid (h : (bcdValid a && bcdValid m) = true) : bcdConfigured dflt rule a m c = dflt a m c := by
  simp [bcdConfigured, h]

/-- On all others the table comes first. -/
theorem bcdConfigured_invalid (h : (bcdValid a && bcdValid m) = false) :
    bcdConfigured dflt rule a m c = (bcdLookup rule a m c).getD (dflt a m c) := by
  simp [bcdConfigured, h]

theorem mem_allBytes (b : Byte) : b ∈ allBytes :=
  List.mem_map.mpr ⟨b.toNat, List.mem_range.mpr b.isLt, by simp⟩

/-- The table of a function has exactly its values as entries. -/
theorem mem_bcdTable (e : BcdEntry) : e ∈ bcdTable f ↔ (e.result, e.carry) = f e.a e.m e.c := by
  obtain ⟨a, m, c, r, k⟩ := e
  simp only [bcdTable, List.mem_flatMap, List.mem_map, BcdEntry.mk.injEq]
  constructor
  · rintro ⟨a', -, m', -, c', -, rfl, rfl, rfl, rfl, rfl⟩
    rfl
  · intro h
    exact ⟨a, mem_allBytes a, m, mem_allBytes m, c, by cases c <;> simp, rfl, rfl, rfl, by simp [← h], by simp [← h]⟩

/-- The table of a function looks up its values. -/
theorem bcdLookup_bcdTable : bcdLookup (bcdTable f) a m c = some (f a m c) := by
  unfold bcdLookup
  cases hf : (bcdTable f).find? fun e => e.a == a && e.m == m && e.c == c with
  | none =>
    have := List.find?_eq_none.mp hf ⟨a, m, c, (f a m c).1, (f a m c).2⟩ ((mem_bcdTable _).mpr rfl)
    simp at this
  | some e =>
    have hk := List.find?_some hf
    simp only [Bool.and_eq_true, beq_iff_eq] at hk
    obtain ⟨⟨rfl, rfl⟩, rfl⟩ := hk
    simp [(mem_bcdTable e).mp (List.mem_of_find?_eq_some hf)]

end Sys2Proof.Machine
end

