-- ==== Sys2Proof/Laws/PerInstr.lean ====
section
/-! SUPPORT. The round trip of the encoding, one lemma per constructor of `Instr`. -/

namespace Sys2Proof.Laws

/-- An address put together from its own two bytes (20_memory.md R52). -/
theorem pair_hi_lo (w : Addr) : Machine.pair (Machine.hi w) (Machine.lo w) = w := by
  apply BitVec.eq_of_getLsbD_eq
  intro k hk
  simp only [Machine.pair, Machine.hi, Machine.lo, BitVec.getLsbD_append, BitVec.getLsbD_extractLsb']
  split_ifs with h
  · simp [h]
  · rw [show 8 + (k - 8) = k by omega]; simp; omega

/-- Decoding the bytes of an instruction gives it back, and the bytes after it. -/
def RoundTrip.Statement (i : Instr) : Prop := ∀ rest : List Byte, decode (encode i ++ rest) = .ok (i, rest)

/-- The decoder on an opcode byte of a three-byte row. -/
theorem decode_word {op : Byte} {mk : Addr → Instr} (h : opMap op = some (.word mk)) (w : Addr) (rest : List Byte) :
    decode (op :: Machine.lo w :: Machine.hi w :: rest) = .ok (mk w, rest) := by
  simp [decode, h, pair_hi_lo]

end Sys2Proof.Laws

namespace Sys2Proof.Laws.RoundTrip

theorem ldaImm (v : Byte) : Statement (.ldaImm v) := fun _ => rfl
theorem ldaZp (o : Byte) : Statement (.ldaZp o) := fun _ => rfl
theorem ldaZpx (o : Byte) : Statement (.ldaZpx o) := fun _ => rfl
theorem ldaAbs (w : Addr) : Statement (.ldaAbs w) := fun rest => decode_word rfl w rest
theorem ldaAbsx (w : Addr) : Statement (.ldaAbsx w) := fun rest => decode_word rfl w rest
theorem ldaAbsy (w : Addr) : Statement (.ldaAbsy w) := fun rest => decode_word rfl w rest
theorem ldaIndx (o : Byte) : Statement (.ldaIndx o) := fun _ => rfl
theorem ldaIndy (o : Byte) : Statement (.ldaIndy o) := fun _ => rfl
theorem ldxImm (v : Byte) : Statement (.ldxImm v) := fun _ => rfl
theorem ldxZp (o : Byte) : Statement (.ldxZp o) := fun _ => rfl
theorem ldxZpy (o : Byte) : Statement (.ldxZpy o) := fun _ => rfl
theorem ldxAbs (w : Addr) : Statement (.ldxAbs w) := fun rest => decode_word rfl w rest
theorem ldxAbsy (w : Addr) : Statement (.ldxAbsy w) := fun rest => decode_word rfl w rest
theorem ldyImm (v : Byte) : Statement (.ldyImm v) := fun _ => rfl
theorem ldyZp (o : Byte) : Statement (.ldyZp o) := fun _ => rfl
theorem ldyZpx (o : Byte) : Statement (.ldyZpx o) := fun _ => rfl
theorem ldyAbs (w : Addr) : Statement (.ldyAbs w) := fun rest => decode_word rfl w rest
theorem ldyAbsx (w : Addr) : Statement (.ldyAbsx w) := fun rest => decode_word rfl w rest
theorem staZp (o : Byte) : Statement (.staZp o) := fun _ => rfl
theorem staZpx (o : Byte) : Statement (.staZpx o) := fun _ => rfl
theorem staAbs (w : Addr) : Statement (.staAbs w) := fun rest => decode_word rfl w rest
theorem staAbsx (w : Addr) : Statement (.staAbsx w) := fun rest => decode_word rfl w rest
theorem staAbsy (w : Addr) : Statement (.staAbsy w) := fun rest => decode_word rfl w rest
theorem staIndx (o : Byte) : Statement (.staIndx o) := fun _ => rfl
theorem staIndy (o : Byte) : Statement (.staIndy o) := fun _ => rfl
theorem stxZp (o : Byte) : Statement (.stxZp o) := fun _ => rfl
theorem stxZpy (o : Byte) : Statement (.stxZpy o) := fun _ => rfl
theorem stxAbs (w : Addr) : Statement (.stxAbs w) := fun rest => decode_word rfl w rest
theorem styZp (o : Byte) : Statement (.styZp o) := fun _ => rfl
theorem styZpx (o : Byte) : Statement (.styZpx o) := fun _ => rfl
theorem styAbs (w : Addr) : Statement (.styAbs w) := fun rest => decode_word rfl w rest
theorem adcImm (v : Byte) : Statement (.adcImm v) := fun _ => rfl
theorem adcZp (o : Byte) : Statement (.adcZp o) := fun _ => rfl
theorem adcZpx (o : Byte) : Statement (.adcZpx o) := fun _ => rfl
theorem adcAbs (w : Addr) : Statement (.adcAbs w) := fun rest => decode_word rfl w rest
theorem adcAbsx (w : Addr) : Statement (.adcAbsx w) := fun rest => decode_word rfl w rest
theorem adcAbsy (w : Addr) : Statement (.adcAbsy w) := fun rest => decode_word rfl w rest
theorem adcIndx (o : Byte) : Statement (.adcIndx o) := fun _ => rfl
theorem adcIndy (o : Byte) : Statement (.adcIndy o) := fun _ => rfl
theorem sbcImm (v : Byte) : Statement (.sbcImm v) := fun _ => rfl
theorem sbcZp (o : Byte) : Statement (.sbcZp o) := fun _ => rfl
theorem sbcZpx (o : Byte) : Statement (.sbcZpx o) := fun _ => rfl
theorem sbcAbs (w : Addr) : Statement (.sbcAbs w) := fun rest => decode_word rfl w rest
theorem sbcAbsx (w : Addr) : Statement (.sbcAbsx w) := fun rest => decode_word rfl w rest
theorem sbcAbsy (w : Addr) : Statement (.sbcAbsy w) := fun rest => decode_word rfl w rest
theorem sbcIndx (o : Byte) : Statement (.sbcIndx o) := fun _ => rfl
theorem sbcIndy (o : Byte) : Statement (.sbcIndy o) := fun _ => rfl
theorem andImm (v : Byte) : Statement (.andImm v) := fun _ => rfl
theorem andZp (o : Byte) : Statement (.andZp o) := fun _ => rfl
theorem andZpx (o : Byte) : Statement (.andZpx o) := fun _ => rfl
theorem andAbs (w : Addr) : Statement (.andAbs w) := fun rest => decode_word rfl w rest
theorem andAbsx (w : Addr) : Statement (.andAbsx w) := fun rest => decode_word rfl w rest
theorem andAbsy (w : Addr) : Statement (.andAbsy w) := fun rest => decode_word rfl w rest
theorem andIndx (o : Byte) : Statement (.andIndx o) := fun _ => rfl
theorem andIndy (o : Byte) : Statement (.andIndy o) := fun _ => rfl
theorem oraImm (v : Byte) : Statement (.oraImm v) := fun _ => rfl
theorem oraZp (o : Byte) : Statement (.oraZp o) := fun _ => rfl
theorem oraZpx (o : Byte) : Statement (.oraZpx o) := fun _ => rfl
theorem oraAbs (w : Addr) : Statement (.oraAbs w) := fun rest => decode_word rfl w rest
theorem oraAbsx (w : Addr) : Statement (.oraAbsx w) := fun rest => decode_word rfl w rest
theorem oraAbsy (w : Addr) : Statement (.oraAbsy w) := fun rest => decode_word rfl w rest
theorem oraIndx (o : Byte) : Statement (.oraIndx o) := fun _ => rfl
theorem oraIndy (o : Byte) : Statement (.oraIndy o) := fun _ => rfl
theorem eorImm (v : Byte) : Statement (.eorImm v) := fun _ => rfl
theorem eorZp (o : Byte) : Statement (.eorZp o) := fun _ => rfl
theorem eorZpx (o : Byte) : Statement (.eorZpx o) := fun _ => rfl
theorem eorAbs (w : Addr) : Statement (.eorAbs w) := fun rest => decode_word rfl w rest
theorem eorAbsx (w : Addr) : Statement (.eorAbsx w) := fun rest => decode_word rfl w rest
theorem eorAbsy (w : Addr) : Statement (.eorAbsy w) := fun rest => decode_word rfl w rest
theorem eorIndx (o : Byte) : Statement (.eorIndx o) := fun _ => rfl
theorem eorIndy (o : Byte) : Statement (.eorIndy o) := fun _ => rfl
theorem aslAcc : Statement .aslAcc := fun _ => rfl
theorem aslZp (o : Byte) : Statement (.aslZp o) := fun _ => rfl
theorem aslZpx (o : Byte) : Statement (.aslZpx o) := fun _ => rfl
theorem aslAbs (w : Addr) : Statement (.aslAbs w) := fun rest => decode_word rfl w rest
theorem aslAbsx (w : Addr) : Statement (.aslAbsx w) := fun rest => decode_word rfl w rest
theorem lsrAcc : Statement .lsrAcc := fun _ => rfl
theorem lsrZp (o : Byte) : Statement (.lsrZp o) := fun _ => rfl
theorem lsrZpx (o : Byte) : Statement (.lsrZpx o) := fun _ => rfl
theorem lsrAbs (w : Addr) : Statement (.lsrAbs w) := fun rest => decode_word rfl w rest
theorem lsrAbsx (w : Addr) : Statement (.lsrAbsx w) := fun rest => decode_word rfl w rest
theorem rolAcc : Statement .rolAcc := fun _ => rfl
theorem rolZp (o : Byte) : Statement (.rolZp o) := fun _ => rfl
theorem rolZpx (o : Byte) : Statement (.rolZpx o) := fun _ => rfl
theorem rolAbs (w : Addr) : Statement (.rolAbs w) := fun rest => decode_word rfl w rest
theorem rolAbsx (w : Addr) : Statement (.rolAbsx w) := fun rest => decode_word rfl w rest
theorem rorAcc : Statement .rorAcc := fun _ => rfl
theorem rorZp (o : Byte) : Statement (.rorZp o) := fun _ => rfl
theorem rorZpx (o : Byte) : Statement (.rorZpx o) := fun _ => rfl
theorem rorAbs (w : Addr) : Statement (.rorAbs w) := fun rest => decode_word rfl w rest
theorem rorAbsx (w : Addr) : Statement (.rorAbsx w) := fun rest => decode_word rfl w rest
theorem cmpImm (v : Byte) : Statement (.cmpImm v) := fun _ => rfl
theorem cmpZp (o : Byte) : Statement (.cmpZp o) := fun _ => rfl
theorem cmpZpx (o : Byte) : Statement (.cmpZpx o) := fun _ => rfl
theorem cmpAbs (w : Addr) : Statement (.cmpAbs w) := fun rest => decode_word rfl w rest
theorem cmpAbsx (w : Addr) : Statement (.cmpAbsx w) := fun rest => decode_word rfl w rest
theorem cmpAbsy (w : Addr) : Statement (.cmpAbsy w) := fun rest => decode_word rfl w rest
theorem cmpIndx (o : Byte) : Statement (.cmpIndx o) := fun _ => rfl
theorem cmpIndy (o : Byte) : Statement (.cmpIndy o) := fun _ => rfl
theorem cpxImm (v : Byte) : Statement (.cpxImm v) := fun _ => rfl
theorem cpxZp (o : Byte) : Statement (.cpxZp o) := fun _ => rfl
theorem cpxAbs (w : Addr) : Statement (.cpxAbs w) := fun rest => decode_word rfl w rest
theorem cpyImm (v : Byte) : Statement (.cpyImm v) := fun _ => rfl
theorem cpyZp (o : Byte) : Statement (.cpyZp o) := fun _ => rfl
theorem cpyAbs (w : Addr) : Statement (.cpyAbs w) := fun rest => decode_word rfl w rest
theorem incZp (o : Byte) : Statement (.incZp o) := fun _ => rfl
theorem incZpx (o : Byte) : Statement (.incZpx o) := fun _ => rfl
theorem incAbs (w : Addr) : Statement (.incAbs w) := fun rest => decode_word rfl w rest
theorem incAbsx (w : Addr) : Statement (.incAbsx w) := fun rest => decode_word rfl w rest
theorem decZp (o : Byte) : Statement (.decZp o) := fun _ => rfl
theorem decZpx (o : Byte) : Statement (.decZpx o) := fun _ => rfl
theorem decAbs (w : Addr) : Statement (.decAbs w) := fun rest => decode_word rfl w rest
theorem decAbsx (w : Addr) : Statement (.decAbsx w) := fun rest => decode_word rfl w rest
theorem inx : Statement .inx := fun _ => rfl
theorem iny : Statement .iny := fun _ => rfl
theorem dex : Statement .dex := fun _ => rfl
theorem dey : Statement .dey := fun _ => rfl
theorem bitZp (o : Byte) : Statement (.bitZp o) := fun _ => rfl
theorem bitAbs (w : Addr) : Statement (.bitAbs w) := fun rest => decode_word rfl w rest
theorem tax : Statement .tax := fun _ => rfl
theorem tay : Statement .tay := fun _ => rfl
theorem txa : Statement .txa := fun _ => rfl
theorem tya : Statement .tya := fun _ => rfl
theorem tsx : Statement .tsx := fun _ => rfl
theorem txs : Statement .txs := fun _ => rfl
theorem pha : Statement .pha := fun _ => rfl
theorem pla : Statement .pla := fun _ => rfl
theorem php : Statement .php := fun _ => rfl
theorem plp : Statement .plp := fun _ => rfl
theorem jmpAbs (w : Addr) : Statement (.jmpAbs w) := fun rest => decode_word rfl w rest
theorem jmpInd (w : Addr) : Statement (.jmpInd w) := fun rest => decode_word rfl w rest
theorem jsr (w : Addr) : Statement (.jsr w) := fun rest => decode_word rfl w rest
theorem rts : Statement .rts := fun _ => rfl
theorem brk (pad : Byte) : Statement (.brk pad) := fun _ => rfl
theorem rti : Statement .rti := fun _ => rfl
theorem bcc (d : Byte) : Statement (.bcc d) := fun _ => rfl
theorem bcs (d : Byte) : Statement (.bcs d) := fun _ => rfl
theorem beq (d : Byte) : Statement (.beq d) := fun _ => rfl
theorem bmi (d : Byte) : Statement (.bmi d) := fun _ => rfl
theorem bne (d : Byte) : Statement (.bne d) := fun _ => rfl
theorem bpl (d : Byte) : Statement (.bpl d) := fun _ => rfl
theorem bvc (d : Byte) : Statement (.bvc d) := fun _ => rfl
theorem bvs (d : Byte) : Statement (.bvs d) := fun _ => rfl
theorem sec : Statement .sec := fun _ => rfl
theorem clc : Statement .clc := fun _ => rfl
theorem sed : Statement .sed := fun _ => rfl
theorem cld : Statement .cld := fun _ => rfl
theorem sei : Statement .sei := fun _ => rfl
theorem cli : Statement .cli := fun _ => rfl
theorem clv : Statement .clv := fun _ => rfl
theorem nop : Statement .nop := fun _ => rfl

end Sys2Proof.Laws.RoundTrip
end

