-- ==== Sys2Proof/Laws/Step.lean ====
section
/-! SUPPORT. What a step can do, said once: each outcome of `step` and of `fetchInstr`, read backwards. -/

namespace Sys2Proof.Machine

/-- What JMP indirect can do (R191): jump, or stop at the address `pointerFault` gives. -/
theorem jumpIndirect_cases (p : Addr) (s : State) :
    (intercepted s.cfg p = false ∧ intercepted s.cfg (pointerHigh s.cfg p) = false ∧
      jumpIndirect p s = .next (s.setPc (pair (s.mem.read (pointerHigh s.cfg p)) (s.mem.read p)))) ∨
    ((intercepted s.cfg p = true ∨ intercepted s.cfg (pointerHigh s.cfg p) = true) ∧
      jumpIndirect p s = .fault (.unmodelled .deviceFetch (pointerFault s.cfg p (pointerHigh s.cfg p)))) := by
  by_cases h : (intercepted s.cfg p || intercepted s.cfg (pointerHigh s.cfg p)) = true
  · exact .inr ⟨by simpa using h, by simp only [jumpIndirect, if_pos h]⟩
  · simp only [Bool.not_eq_true] at h
    exact .inl ⟨by simp_all, by simp_all, by simp only [jumpIndirect, h]; rfl⟩

/-- A step answers a next state exactly when its fetch gives an instruction that does; the state is then retired. -/
theorem step_next_iff (s t : State) :
    step s = .next t ↔ ∃ i u, fetchInstr s = .ok i ∧ exec i s = .next u ∧ t = retire u := by
  unfold step
  split
  · rename_i f hf; simp [hf]
  · rename_i i hi
    split
    · rename_i u hu; simp [hi, hu, eq_comm]
    · rename_i f hf; simp [hi, hf]
    · rename_i r hr; simp [hi, hr]

/-- What a successful fetch found (30_encoding.md R91). -/
theorem fetchInstr_ok {s : State} {i : Instr} (h : fetchInstr s = .ok i) :
    intercepted s.cfg s.pc = false ∧ ∃ len rest, implementedLength s.cfg (s.mem.read s.pc) = some len ∧
      (∀ b ∈ operandAddrs s.pc len, intercepted s.cfg b = false) ∧
      decode (fetchBytes s.mem s.pc len) = .ok (i, rest) := by
  unfold fetchInstr at h
  split at h
  · cases h
  · rename_i hpc
    simp only at h
    split at h
    · cases h
    · rename_i len hlen
      split at h
      · cases h
      · rename_i hops
        split at h
        · rename_i j rest hdec
          cases h
          exact ⟨by simpa using hpc, len, rest, hlen, by simpa using hops, hdec⟩
        · cases h

end Sys2Proof.Machine
end

