-- ==== Sys2Proof/Tests/Slice0.lean ====
section
/-! SUPPORT. The model's own tests. The expected results are the vectors of 95_test_vectors.md section 3 and the words that
30_encoding.md R81 and R85 give. After them, a witness for every obligation that has hypotheses. -/

open Sys2Proof Sys2Proof.Machine

set_option Elab.async false

namespace Sys2Proof.Tests

/-! Decoding: for every constructor, the bytes that R81 and R85 give it, with the operand bytes 0x12 and 0x34. -/

/-- The bytes decode to the instruction, and nothing is left over. -/
def decodes (bytes : List Byte) (i : Instr) : Bool :=
  match decode bytes with
  | .ok (j, rest) => decide (j = i) && rest.isEmpty
  | .error _ => false

theorem test_decode_LDA : (
    decodes [0xA9, 0x12] (.ldaImm 0x12) && decodes [0xA5, 0x12] (.ldaZp 0x12) && decodes [0xB5, 0x12] (.ldaZpx 0x12) &&
    decodes [0xAD, 0x12, 0x34] (.ldaAbs 0x3412) && decodes [0xBD, 0x12, 0x34] (.ldaAbsx 0x3412) &&
    decodes [0xB9, 0x12, 0x34] (.ldaAbsy 0x3412) && decodes [0xA1, 0x12] (.ldaIndx 0x12) &&
    decodes [0xB1, 0x12] (.ldaIndy 0x12)) = true := by decide +kernel
theorem test_decode_LDX : (
    decodes [0xA2, 0x12] (.ldxImm 0x12) && decodes [0xA6, 0x12] (.ldxZp 0x12) && decodes [0xB6, 0x12] (.ldxZpy 0x12) &&
    decodes [0xAE, 0x12, 0x34] (.ldxAbs 0x3412) && decodes [0xBE, 0x12, 0x34] (.ldxAbsy 0x3412)) = true := by decide +kernel
theorem test_decode_LDY : (
    decodes [0xA0, 0x12] (.ldyImm 0x12) && decodes [0xA4, 0x12] (.ldyZp 0x12) && decodes [0xB4, 0x12] (.ldyZpx 0x12) &&
    decodes [0xAC, 0x12, 0x34] (.ldyAbs 0x3412) && decodes [0xBC, 0x12, 0x34] (.ldyAbsx 0x3412)) = true := by decide +kernel
theorem test_decode_STA : (
    decodes [0x85, 0x12] (.staZp 0x12) && decodes [0x95, 0x12] (.staZpx 0x12) &&
    decodes [0x8D, 0x12, 0x34] (.staAbs 0x3412) && decodes [0x9D, 0x12, 0x34] (.staAbsx 0x3412) &&
    decodes [0x99, 0x12, 0x34] (.staAbsy 0x3412) && decodes [0x81, 0x12] (.staIndx 0x12) &&
    decodes [0x91, 0x12] (.staIndy 0x12)) = true := by decide +kernel
theorem test_decode_STX : (
    decodes [0x86, 0x12] (.stxZp 0x12) && decodes [0x96, 0x12] (.stxZpy 0x12) && decodes [0x8E, 0x12, 0x34] (.stxAbs 0x3412)) = true := by decide +kernel
theorem test_decode_STY : (
    decodes [0x84, 0x12] (.styZp 0x12) && decodes [0x94, 0x12] (.styZpx 0x12) && decodes [0x8C, 0x12, 0x34] (.styAbs 0x3412)) = true := by decide +kernel
theorem test_decode_ADC : (
    decodes [0x69, 0x12] (.adcImm 0x12) && decodes [0x65, 0x12] (.adcZp 0x12) && decodes [0x75, 0x12] (.adcZpx 0x12) &&
    decodes [0x6D, 0x12, 0x34] (.adcAbs 0x3412) && decodes [0x7D, 0x12, 0x34] (.adcAbsx 0x3412) &&
    decodes [0x79, 0x12, 0x34] (.adcAbsy 0x3412) && decodes [0x61, 0x12] (.adcIndx 0x12) &&
    decodes [0x71, 0x12] (.adcIndy 0x12)) = true := by decide +kernel
theorem test_decode_SBC : (
    decodes [0xE9, 0x12] (.sbcImm 0x12) && decodes [0xE5, 0x12] (.sbcZp 0x12) && decodes [0xF5, 0x12] (.sbcZpx 0x12) &&
    decodes [0xED, 0x12, 0x34] (.sbcAbs 0x3412) && decodes [0xFD, 0x12, 0x34] (.sbcAbsx 0x3412) &&
    decodes [0xF9, 0x12, 0x34] (.sbcAbsy 0x3412) && decodes [0xE1, 0x12] (.sbcIndx 0x12) &&
    decodes [0xF1, 0x12] (.sbcIndy 0x12)) = true := by decide +kernel
theorem test_decode_AND : (
    decodes [0x29, 0x12] (.andImm 0x12) && decodes [0x25, 0x12] (.andZp 0x12) && decodes [0x35, 0x12] (.andZpx 0x12) &&
    decodes [0x2D, 0x12, 0x34] (.andAbs 0x3412) && decodes [0x3D, 0x12, 0x34] (.andAbsx 0x3412) &&
    decodes [0x39, 0x12, 0x34] (.andAbsy 0x3412) && decodes [0x21, 0x12] (.andIndx 0x12) &&
    decodes [0x31, 0x12] (.andIndy 0x12)) = true := by decide +kernel
theorem test_decode_ORA : (
    decodes [0x09, 0x12] (.oraImm 0x12) && decodes [0x05, 0x12] (.oraZp 0x12) && decodes [0x15, 0x12] (.oraZpx 0x12) &&
    decodes [0x0D, 0x12, 0x34] (.oraAbs 0x3412) && decodes [0x1D, 0x12, 0x34] (.oraAbsx 0x3412) &&
    decodes [0x19, 0x12, 0x34] (.oraAbsy 0x3412) && decodes [0x01, 0x12] (.oraIndx 0x12) &&
    decodes [0x11, 0x12] (.oraIndy 0x12)) = true := by decide +kernel
theorem test_decode_EOR : (
    decodes [0x49, 0x12] (.eorImm 0x12) && decodes [0x45, 0x12] (.eorZp 0x12) && decodes [0x55, 0x12] (.eorZpx 0x12) &&
    decodes [0x4D, 0x12, 0x34] (.eorAbs 0x3412) && decodes [0x5D, 0x12, 0x34] (.eorAbsx 0x3412) &&
    decodes [0x59, 0x12, 0x34] (.eorAbsy 0x3412) && decodes [0x41, 0x12] (.eorIndx 0x12) &&
    decodes [0x51, 0x12] (.eorIndy 0x12)) = true := by decide +kernel
theorem test_decode_ASL : (
    decodes [0x0A] .aslAcc && decodes [0x06, 0x12] (.aslZp 0x12) && decodes [0x16, 0x12] (.aslZpx 0x12) &&
    decodes [0x0E, 0x12, 0x34] (.aslAbs 0x3412) && decodes [0x1E, 0x12, 0x34] (.aslAbsx 0x3412)) = true := by decide +kernel
theorem test_decode_LSR : (
    decodes [0x4A] .lsrAcc && decodes [0x46, 0x12] (.lsrZp 0x12) && decodes [0x56, 0x12] (.lsrZpx 0x12) &&
    decodes [0x4E, 0x12, 0x34] (.lsrAbs 0x3412) && decodes [0x5E, 0x12, 0x34] (.lsrAbsx 0x3412)) = true := by decide +kernel
theorem test_decode_ROL : (
    decodes [0x2A] .rolAcc && decodes [0x26, 0x12] (.rolZp 0x12) && decodes [0x36, 0x12] (.rolZpx 0x12) &&
    decodes [0x2E, 0x12, 0x34] (.rolAbs 0x3412) && decodes [0x3E, 0x12, 0x34] (.rolAbsx 0x3412)) = true := by decide +kernel
theorem test_decode_ROR : (
    decodes [0x6A] .rorAcc && decodes [0x66, 0x12] (.rorZp 0x12) && decodes [0x76, 0x12] (.rorZpx 0x12) &&
    decodes [0x6E, 0x12, 0x34] (.rorAbs 0x3412) && decodes [0x7E, 0x12, 0x34] (.rorAbsx 0x3412)) = true := by decide +kernel
theorem test_decode_CMP : (
    decodes [0xC9, 0x12] (.cmpImm 0x12) && decodes [0xC5, 0x12] (.cmpZp 0x12) && decodes [0xD5, 0x12] (.cmpZpx 0x12) &&
    decodes [0xCD, 0x12, 0x34] (.cmpAbs 0x3412) && decodes [0xDD, 0x12, 0x34] (.cmpAbsx 0x3412) &&
    decodes [0xD9, 0x12, 0x34] (.cmpAbsy 0x3412) && decodes [0xC1, 0x12] (.cmpIndx 0x12) &&
    decodes [0xD1, 0x12] (.cmpIndy 0x12)) = true := by decide +kernel
theorem test_decode_CPX : (
    decodes [0xE0, 0x12] (.cpxImm 0x12) && decodes [0xE4, 0x12] (.cpxZp 0x12) && decodes [0xEC, 0x12, 0x34] (.cpxAbs 0x3412)) = true := by decide +kernel
theorem test_decode_CPY : (
    decodes [0xC0, 0x12] (.cpyImm 0x12) && decodes [0xC4, 0x12] (.cpyZp 0x12) && decodes [0xCC, 0x12, 0x34] (.cpyAbs 0x3412)) = true := by decide +kernel
theorem test_decode_INC : (
    decodes [0xE6, 0x12] (.incZp 0x12) && decodes [0xF6, 0x12] (.incZpx 0x12) &&
    decodes [0xEE, 0x12, 0x34] (.incAbs 0x3412) && decodes [0xFE, 0x12, 0x34] (.incAbsx 0x3412)) = true := by decide +kernel
theorem test_decode_DEC : (
    decodes [0xC6, 0x12] (.decZp 0x12) && decodes [0xD6, 0x12] (.decZpx 0x12) &&
    decodes [0xCE, 0x12, 0x34] (.decAbs 0x3412) && decodes [0xDE, 0x12, 0x34] (.decAbsx 0x3412)) = true := by decide +kernel
theorem test_decode_INX : decodes [0xE8] .inx = true := by decide +kernel
theorem test_decode_INY : decodes [0xC8] .iny = true := by decide +kernel
theorem test_decode_DEX : decodes [0xCA] .dex = true := by decide +kernel
theorem test_decode_DEY : decodes [0x88] .dey = true := by decide +kernel
theorem test_decode_BIT : (
    decodes [0x24, 0x12] (.bitZp 0x12) && decodes [0x2C, 0x12, 0x34] (.bitAbs 0x3412)) = true := by decide +kernel
theorem test_decode_TAX : decodes [0xAA] .tax = true := by decide +kernel
theorem test_decode_TAY : decodes [0xA8] .tay = true := by decide +kernel
theorem test_decode_TXA : decodes [0x8A] .txa = true := by decide +kernel
theorem test_decode_TYA : decodes [0x98] .tya = true := by decide +kernel
theorem test_decode_TSX : decodes [0xBA] .tsx = true := by decide +kernel
theorem test_decode_TXS : decodes [0x9A] .txs = true := by decide +kernel
theorem test_decode_PHA : decodes [0x48] .pha = true := by decide +kernel
theorem test_decode_PLA : decodes [0x68] .pla = true := by decide +kernel
theorem test_decode_PHP : decodes [0x08] .php = true := by decide +kernel
theorem test_decode_PLP : decodes [0x28] .plp = true := by decide +kernel
theorem test_decode_JMP : (
    decodes [0x4C, 0x12, 0x34] (.jmpAbs 0x3412) && decodes [0x6C, 0x12, 0x34] (.jmpInd 0x3412)) = true := by decide +kernel
theorem test_decode_JSR : decodes [0x20, 0x12, 0x34] (.jsr 0x3412) = true := by decide +kernel
theorem test_decode_RTS : decodes [0x60] .rts = true := by decide +kernel
theorem test_decode_BRK : decodes [0x00, 0x12] (.brk 0x12) = true := by decide +kernel
theorem test_decode_RTI : decodes [0x40] .rti = true := by decide +kernel
theorem test_decode_BCC : decodes [0x90, 0x12] (.bcc 0x12) = true := by decide +kernel
theorem test_decode_BCS : decodes [0xB0, 0x12] (.bcs 0x12) = true := by decide +kernel
theorem test_decode_BEQ : decodes [0xF0, 0x12] (.beq 0x12) = true := by decide +kernel
theorem test_decode_BMI : decodes [0x30, 0x12] (.bmi 0x12) = true := by decide +kernel
theorem test_decode_BNE : decodes [0xD0, 0x12] (.bne 0x12) = true := by decide +kernel
theorem test_decode_BPL : decodes [0x10, 0x12] (.bpl 0x12) = true := by decide +kernel
theorem test_decode_BVC : decodes [0x50, 0x12] (.bvc 0x12) = true := by decide +kernel
theorem test_decode_BVS : decodes [0x70, 0x12] (.bvs 0x12) = true := by decide +kernel
theorem test_decode_SEC : decodes [0x38] .sec = true := by decide +kernel
theorem test_decode_CLC : decodes [0x18] .clc = true := by decide +kernel
theorem test_decode_SED : decodes [0xF8] .sed = true := by decide +kernel
theorem test_decode_CLD : decodes [0xD8] .cld = true := by decide +kernel
theorem test_decode_SEI : decodes [0x78] .sei = true := by decide +kernel
theorem test_decode_CLI : decodes [0x58] .cli = true := by decide +kernel
theorem test_decode_CLV : decodes [0xB8] .clv = true := by decide +kernel
theorem test_decode_NOP : decodes [0xEA] .nop = true := by decide +kernel

/-- Words written bit by bit from R80 to R85, as spec/opcode_table.json numbers them: the opcode byte is the lowest one. -/
theorem test_decode_table_words :
    decodeTableWord 16 0b0001_0000_1010_0101 = some (.ldaZp 0x10) ∧
    decodeTableWord 24 0b0001_0010_0011_0100_1001_1101 = some (.staAbsx 0x1234) ∧
    decodeTableWord 8 0b0110_1010 = some .rorAcc ∧
    decodeTableWord 8 0b0110_1001 = some (.adcImm 0) ∧
    decodeTableWord 24 0b0000_0010_1111_1111_0110_1100 = some (.jmpInd 0x02FF) ∧
    decodeTableWord 16 0b1111_1010_1001_0000 = some (.bcc 0xFA) ∧
    decodeTableWord 8 0b1111_1000 = some .sed ∧
    decodeTableWord 8 0b0000_0010 = Option.none := by decide +kernel

/-- What the decoder refuses, by name (R87). -/
theorem test_decode_rejects :
    decode [] = .error .noBytes ∧ decode [0x02, 0x00, 0x00] = .error (.unassigned 0x02) ∧
    decode [0xFF] = .error (.unassigned 0xFF) ∧ decode [0xA9] = .error (.truncated 0xA9) ∧
    decode [0x8D, 0x00] = .error (.truncated 0x8D) := by
  refine ⟨rfl, rfl, rfl, rfl, rfl⟩

/-- The one well-formedness check (R86): an ill-formed instruction is refused. -/
theorem test_wellFormed :
    (Instr.ldaImm 0x01).wellFormed resetConfig = true ∧
    (Instr.ldaImm 0x01).wellFormed { resetConfig with implemented := assignedOpcodes.erase 0xA9 } = false := by decide +kernel

/-- What construction refuses (R7; the vectors after section 3 of 95_test_vectors.md). -/
theorem test_construction_checks :
    configProblem resetConfig 65536 = none ∧
    configProblem resetConfig 65537 = some .imageTooLong ∧
    configProblem { resetConfig with softSwitches := [(0xC052, .split)] } 0 = some .graphicsSwitchMissing ∧
    configProblem { resetConfig with softSwitches := [(0xC050, .graphics), (0xC050, .split)] } 0 = some .switchNamedTwice ∧
    configProblem { resetConfig with strobeLo := 0xC01F, strobeHi := 0xC010 } 0 = some .strobeInverted ∧
    configProblem { resetConfig with video2 := ⟨0x07FF, 0x0900⟩ } 0 = some .videoOverlap ∧
    [0x00FF, 0x0180, 0xFFFD].all (fun a =>
      decide (configProblem { resetConfig with softSwitches := [(0xC050, .graphics), (a, .split)] } 0 = some .interceptedReserved)) ∧
    configProblem { resetConfig with strobeLo := 0x01FF } 0 = some .interceptedReserved := by decide +kernel

/-! Single steps. -/

/-- The start state of a vector of 95_test_vectors.md section 3: the test configuration, `dirty` 0, the bytes placed at `PC`. -/
def tc (pc : Addr) (bytes : List Byte) : State :=
  { State.reset with pc := pc, dirty := false, mem := placeBytes bytes pc [] }

/-- Memory with these bytes changed. -/
def poke (cells : List (Addr × Byte)) (m : Memory) : Memory := cells.foldl (fun m c => m.write c.1 c.2) m

/-- The outcome of one step and, but for `icount`, the whole state after it. -/
def outcomeIs (o : StepOutcome) (s : State) (post : State → State) : Bool :=
  match stepApi false s with
  | (r, t) => decide (r = o) && decide (t = { post s with icount := s.icount + 1 })

/-- One step continues, and changes what `post` says and nothing else. -/
def goes (s : State) (post : State → State) : Bool := outcomeIs .continued s post

/-- One step completes at the breakpoint. -/
def breaks (s : State) (post : State → State) : Bool := outcomeIs .breakpoint s post

/-- One step stops with this outcome and changes nothing. -/
def stops (s : State) (o : StepOutcome) : Bool := decide (stepApi false s = (o, s))

theorem test_LDA :
    (goes (tc 0x0200 [0xA9, 0x00] |> fun s => { s with a := 0x55, flags.n := true }) (fun s => { s with a := 0x00, pc := 0x0202, flags.n := false, flags.z := true }) &&
     goes (tc 0x0200 [0xA9, 0x80]) (fun s => { s with a := 0x80, pc := 0x0202, flags.n := true }) &&
     goes (tc 0x0200 [0xA5, 0x10] |> fun s => { s with flags.z := true, mem := poke [(0x0010, 0x7F)] s.mem }) (fun s => { s with a := 0x7F, pc := 0x0202, flags.z := false }) &&
     goes (tc 0x0200 [0xB5, 0xFF] |> fun s => { s with x := 0x02, mem := poke [(0x0001, 0x80)] s.mem }) (fun s => { s with a := 0x80, pc := 0x0202, flags.n := true }) &&
     goes (tc 0x0200 [0xAD, 0x34, 0x12] |> fun s => { s with mem := poke [(0x1234, 0x01)] s.mem }) (fun s => { s with a := 0x01, pc := 0x0203 }) &&
     goes (tc 0x0200 [0xBD, 0xFF, 0xFF] |> fun s => { s with x := 0x01, mem := poke [(0x0000, 0x42)] s.mem }) (fun s => { s with a := 0x42, pc := 0x0203 }) &&
     goes (tc 0x0200 [0xB9, 0x00, 0x12] |> fun s => { s with y := 0xFF, mem := poke [(0x12FF, 0x33)] s.mem }) (fun s => { s with a := 0x33, pc := 0x0203 }) &&
     goes (tc 0x0200 [0xA1, 0xFE] |> fun s => { s with x := 0x01, mem := poke [(0x0000, 0x30), (0x00FF, 0x00), (0x3000, 0x99)] s.mem }) (fun s => { s with a := 0x99, pc := 0x0202, flags.n := true }) &&
     goes (tc 0x0200 [0xB1, 0xFF] |> fun s => { s with y := 0x10, mem := poke [(0x0000, 0x30), (0x00FF, 0xF8), (0x3108, 0x44)] s.mem }) (fun s => { s with a := 0x44, pc := 0x0202 }) &&
     goes (tc 0x0200 [0xB1, 0x40] |> fun s => { s with y := 0x02, mem := poke [(0x0001, 0x5A), (0x0040, 0xFF), (0x0041, 0xFF)] s.mem }) (fun s => { s with a := 0x5A, pc := 0x0202 })) = true := by decide +kernel

theorem test_LDX :
    (goes (tc 0x0200 [0xA2, 0xFF]) (fun s => { s with x := 0xFF, pc := 0x0202, flags.n := true }) &&
     goes (tc 0x0200 [0xB6, 0xF0] |> fun s => { s with y := 0x20, mem := poke [(0x0010, 0x00)] s.mem }) (fun s => { s with pc := 0x0202, flags.z := true }) &&
     goes (tc 0x0200 [0xBE, 0x00, 0x20] |> fun s => { s with y := 0x03, mem := poke [(0x2003, 0x05)] s.mem }) (fun s => { s with x := 0x05, pc := 0x0203 }) &&
     goes (tc 0x0200 [0xA6, 0x10] |> fun s => { s with a := 0x5A, flags.c := true, mem := poke [(0x0010, 0xC3)] s.mem }) (fun s => { s with pc := 0x0202, x := 0xC3, flags.z := false, flags.n := true }) &&
     goes (tc 0x0200 [0xAE, 0x34, 0x12] |> fun s => { s with a := 0x5A, flags.c := true, mem := poke [(0x1234, 0xC3)] s.mem }) (fun s => { s with pc := 0x0203, x := 0xC3, flags.z := false, flags.n := true })) = true := by decide +kernel

theorem test_LDY :
    (goes (tc 0x0200 [0xA0, 0x00] |> fun s => { s with y := 0x09 }) (fun s => { s with y := 0x00, pc := 0x0202, flags.z := true }) &&
     goes (tc 0x0200 [0xB4, 0x20] |> fun s => { s with x := 0xE0, mem := poke [(0x0000, 0x81)] s.mem }) (fun s => { s with y := 0x81, pc := 0x0202, flags.n := true }) &&
     goes (tc 0x0200 [0xBC, 0x00, 0x30] |> fun s => { s with x := 0x01, mem := poke [(0x3001, 0x10)] s.mem }) (fun s => { s with y := 0x10, pc := 0x0203 }) &&
     goes (tc 0x0200 [0xA4, 0x10] |> fun s => { s with a := 0x5A, flags.c := true, mem := poke [(0x0010, 0xC3)] s.mem }) (fun s => { s with pc := 0x0202, y := 0xC3, flags.z := false, flags.n := true }) &&
     goes (tc 0x0200 [0xAC, 0x34, 0x12] |> fun s => { s with a := 0x5A, flags.c := true, mem := poke [(0x1234, 0xC3)] s.mem }) (fun s => { s with pc := 0x0203, y := 0xC3, flags.z := false, flags.n := true })) = true := by decide +kernel

theorem test_STA :
    (goes (tc 0x0200 [0x85, 0x10] |> fun s => { s with a := 0xAB }) (fun s => { s with pc := 0x0202, mem := poke [(0x0010, 0xAB)] s.mem }) &&
     goes (tc 0x0200 [0x95, 0xFF] |> fun s => { s with a := 0x12, x := 0x03 }) (fun s => { s with pc := 0x0202, mem := poke [(0x0002, 0x12)] s.mem }) &&
     goes (tc 0x0200 [0x8D, 0x00, 0x04] |> fun s => { s with a := 0xC1 }) (fun s => { s with pc := 0x0203, dirty := true, mem := poke [(0x0400, 0xC1)] s.mem }) &&
     goes (tc 0x0200 [0x8D, 0x00, 0xD0] |> fun s => { s with a := 0x77 }) (fun s => { s with pc := 0x0203 }) &&
     goes (tc 0x0200 [0x8D, 0xFF, 0xBF] |> fun s => { s with a := 0x77 }) (fun s => { s with pc := 0x0203, mem := poke [(0xBFFF, 0x77)] s.mem }) &&
     goes (tc 0x0200 [0x8D, 0x00, 0xC0] |> fun s => { s with a := 0x77 }) (fun s => { s with pc := 0x0203 }) &&
     goes (tc 0x0200 [0x91, 0x20] |> fun s => { s with a := 0x5E, y := 0x01, mem := poke [(0x0020, 0xFF), (0x0021, 0x20)] s.mem }) (fun s => { s with pc := 0x0202, dirty := true, mem := poke [(0x2100, 0x5E)] s.mem }) &&
     goes (tc 0x0200 [0x81, 0x20] |> fun s => { s with a := 0x5F, x := 0x02, mem := poke [(0x0022, 0x00), (0x0023, 0x05)] s.mem }) (fun s => { s with pc := 0x0202, dirty := true, mem := poke [(0x0500, 0x5F)] s.mem }) &&
     goes (tc 0x0200 [0x9D, 0xFF, 0xFF] |> fun s => { s with a := 0x5A, flags.c := true, x := 0x02 }) (fun s => { s with pc := 0x0203, mem := poke [(0x0001, 0x5A)] s.mem }) &&
     goes (tc 0x0200 [0x99, 0xF0, 0x12] |> fun s => { s with a := 0x5A, flags.c := true, y := 0x20 }) (fun s => { s with pc := 0x0203, mem := poke [(0x1310, 0x5A)] s.mem })) = true := by decide +kernel

theorem test_STX :
    (goes (tc 0x0200 [0x86, 0x80] |> fun s => { s with x := 0x00, flags.z := false, flags.n := true }) (fun s => { s with pc := 0x0202 }) &&
     goes (tc 0x0200 [0x96, 0xFF] |> fun s => { s with x := 0x66, y := 0x02 }) (fun s => { s with pc := 0x0202, mem := poke [(0x0001, 0x66)] s.mem }) &&
     goes (tc 0x0200 [0x8E, 0x34, 0x12] |> fun s => { s with a := 0x5A, flags.c := true, x := 0x5A }) (fun s => { s with pc := 0x0203, mem := poke [(0x1234, 0x5A)] s.mem })) = true := by decide +kernel

theorem test_STY :
    (goes (tc 0x0200 [0x8C, 0x00, 0x10] |> fun s => { s with y := 0x88 }) (fun s => { s with pc := 0x0203, mem := poke [(0x1000, 0x88)] s.mem }) &&
     goes (tc 0x0200 [0x94, 0xF0] |> fun s => { s with y := 0x01, x := 0x20 }) (fun s => { s with pc := 0x0202, mem := poke [(0x0010, 0x01)] s.mem }) &&
     goes (tc 0x0200 [0x84, 0x10] |> fun s => { s with a := 0x5A, flags.c := true, y := 0x5A }) (fun s => { s with pc := 0x0202, mem := poke [(0x0010, 0x5A)] s.mem })) = true := by decide +kernel

theorem test_ADC :
    (goes (tc 0x0200 [0x69, 0x01] |> fun s => { s with a := 0xFF }) (fun s => { s with a := 0x00, pc := 0x0202, flags.z := true, flags.c := true }) &&
     goes (tc 0x0200 [0x69, 0x00] |> fun s => { s with a := 0xFF, flags.c := true }) (fun s => { s with a := 0x00, pc := 0x0202, flags.z := true }) &&
     goes (tc 0x0200 [0x69, 0x01] |> fun s => { s with a := 0x7F }) (fun s => { s with a := 0x80, pc := 0x0202, flags.n := true, flags.v := true }) &&
     goes (tc 0x0200 [0x69, 0x80] |> fun s => { s with a := 0x80 }) (fun s => { s with a := 0x00, pc := 0x0202, flags.v := true, flags.z := true, flags.c := true }) &&
     goes (tc 0x0200 [0x69, 0x90] |> fun s => { s with a := 0xD0, flags.c := true }) (fun s => { s with a := 0x61, pc := 0x0202, flags.v := true }) &&
     goes (tc 0x0200 [0x69, 0x10] |> fun s => { s with a := 0x20, flags.c := true }) (fun s => { s with a := 0x31, pc := 0x0202, flags.c := false }) &&
     goes (tc 0x0200 [0x75, 0x10] |> fun s => { s with a := 0x01, x := 0xF5, mem := poke [(0x0005, 0x02)] s.mem }) (fun s => { s with a := 0x03, pc := 0x0202 }) &&
     goes (tc 0x0200 [0x69, 0x46] |> fun s => { s with a := 0x58, flags.d := true }) (fun s => { s with a := 0x04, pc := 0x0202, flags.c := true }) &&
     goes (tc 0x0200 [0x69, 0x01] |> fun s => { s with a := 0x99, flags.d := true }) (fun s => { s with a := 0x00, pc := 0x0202, flags.z := true, flags.c := true }) &&
     goes (tc 0x0200 [0x69, 0x00] |> fun s => { s with a := 0x99, flags.d := true, flags.c := true }) (fun s => { s with a := 0x00, pc := 0x0202, flags.z := true }) &&
     goes (tc 0x0200 [0x69, 0x01] |> fun s => { s with a := 0x7F, flags.d := true, flags.v := true }) (fun s => { s with a := 0x86, pc := 0x0202, flags.n := true }) &&
     goes (tc 0x0200 [0x69, 0x01] |> fun s => { s with a := 0x7F, flags.d := true, flags.v := false }) (fun s => { s with a := 0x86, pc := 0x0202, flags.n := true }) &&
     goes (tc 0x0200 [0x65, 0x10] |> fun s => { s with a := 0x5A, flags.c := true, mem := poke [(0x0010, 0xC3)] s.mem }) (fun s => { s with pc := 0x0202, a := 0x1E, flags.c := true, flags.v := false, flags.z := false, flags.n := false }) &&
     goes (tc 0x0200 [0x6D, 0x34, 0x12] |> fun s => { s with a := 0x5A, flags.c := true, mem := poke [(0x1234, 0xC3)] s.mem }) (fun s => { s with pc := 0x0203, a := 0x1E, flags.c := true, flags.v := false, flags.z := false, flags.n := false }) &&
     goes (tc 0x0200 [0x7D, 0xFF, 0xFF] |> fun s => { s with a := 0x5A, flags.c := true, x := 0x02, mem := poke [(0x0001, 0xC3)] s.mem }) (fun s => { s with pc := 0x0203, a := 0x1E, flags.c := true, flags.v := false, flags.z := false, flags.n := false }) &&
     goes (tc 0x0200 [0x79, 0xF0, 0x12] |> fun s => { s with a := 0x5A, flags.c := true, y := 0x20, mem := poke [(0x1310, 0xC3)] s.mem }) (fun s => { s with pc := 0x0203, a := 0x1E, flags.c := true, flags.v := false, flags.z := false, flags.n := false }) &&
     goes (tc 0x0200 [0x61, 0xFE] |> fun s => { s with a := 0x5A, flags.c := true, x := 0x01, mem := poke [(0x00FF, 0x00), (0x0000, 0x30), (0x3000, 0xC3)] s.mem }) (fun s => { s with pc := 0x0202, a := 0x1E, flags.c := true, flags.v := false, flags.z := false, flags.n := false }) &&
     goes (tc 0x0200 [0x71, 0x40] |> fun s => { s with a := 0x5A, flags.c := true, y := 0x20, mem := poke [(0x0040, 0xF0), (0x0041, 0x12), (0x1310, 0xC3)] s.mem }) (fun s => { s with pc := 0x0202, a := 0x1E, flags.c := true, flags.v := false, flags.z := false, flags.n := false })) = true := by decide +kernel

theorem test_SBC :
    (goes (tc 0x0200 [0xE9, 0x01] |> fun s => { s with a := 0x00, flags.c := true }) (fun s => { s with a := 0xFF, pc := 0x0202, flags.n := true, flags.c := false }) &&
     goes (tc 0x0200 [0xE9, 0x05] |> fun s => { s with a := 0x05, flags.c := true }) (fun s => { s with a := 0x00, pc := 0x0202, flags.z := true }) &&
     goes (tc 0x0200 [0xE9, 0x05] |> fun s => { s with a := 0x05, flags.c := false }) (fun s => { s with a := 0xFF, pc := 0x0202, flags.n := true }) &&
     goes (tc 0x0200 [0xE9, 0x01] |> fun s => { s with a := 0x80, flags.c := true }) (fun s => { s with a := 0x7F, pc := 0x0202, flags.v := true }) &&
     goes (tc 0x0200 [0xE9, 0xFF] |> fun s => { s with a := 0x7F, flags.c := true }) (fun s => { s with a := 0x80, pc := 0x0202, flags.n := true, flags.v := true, flags.c := false }) &&
     goes (tc 0x0200 [0xE9, 0xB0] |> fun s => { s with a := 0x50, flags.c := true }) (fun s => { s with a := 0xA0, pc := 0x0202, flags.n := true, flags.v := true, flags.c := false }) &&
     goes (tc 0x0200 [0xE9, 0x01] |> fun s => { s with a := 0x00, flags.d := true, flags.c := true }) (fun s => { s with a := 0x99, pc := 0x0202, flags.n := true, flags.c := false }) &&
     goes (tc 0x0200 [0xE9, 0x13] |> fun s => { s with a := 0x46, flags.d := true, flags.c := true }) (fun s => { s with a := 0x33, pc := 0x0202 }) &&
     goes (tc 0x0200 [0xE9, 0x13] |> fun s => { s with a := 0x46, flags.d := true, flags.c := false }) (fun s => { s with a := 0x32, pc := 0x0202, flags.c := true }) &&
     goes (tc 0x0200 [0xE9, 0x50] |> fun s => { s with a := 0x50, flags.d := true, flags.c := true }) (fun s => { s with a := 0x00, pc := 0x0202, flags.z := true }) &&
     goes (tc 0x0200 [0xE5, 0x10] |> fun s => { s with a := 0x5A, flags.c := true, mem := poke [(0x0010, 0xC3)] s.mem }) (fun s => { s with pc := 0x0202, a := 0x97, flags.c := false, flags.v := true, flags.z := false, flags.n := true }) &&
     goes (tc 0x0200 [0xF5, 0xF8] |> fun s => { s with a := 0x5A, flags.c := true, x := 0x10, mem := poke [(0x0008, 0xC3)] s.mem }) (fun s => { s with pc := 0x0202, a := 0x97, flags.c := false, flags.v := true, flags.z := false, flags.n := true }) &&
     goes (tc 0x0200 [0xED, 0x34, 0x12] |> fun s => { s with a := 0x5A, flags.c := true, mem := poke [(0x1234, 0xC3)] s.mem }) (fun s => { s with pc := 0x0203, a := 0x97, flags.c := false, flags.v := true, flags.z := false, flags.n := true }) &&
     goes (tc 0x0200 [0xFD, 0xFF, 0xFF] |> fun s => { s with a := 0x5A, flags.c := true, x := 0x02, mem := poke [(0x0001, 0xC3)] s.mem }) (fun s => { s with pc := 0x0203, a := 0x97, flags.c := false, flags.v := true, flags.z := false, flags.n := true }) &&
     goes (tc 0x0200 [0xF9, 0xF0, 0x12] |> fun s => { s with a := 0x5A, flags.c := true, y := 0x20, mem := poke [(0x1310, 0xC3)] s.mem }) (fun s => { s with pc := 0x0203, a := 0x97, flags.c := false, flags.v := true, flags.z := false, flags.n := true }) &&
     goes (tc 0x0200 [0xE1, 0xFE] |> fun s => { s with a := 0x5A, flags.c := true, x := 0x01, mem := poke [(0x00FF, 0x00), (0x0000, 0x30), (0x3000, 0xC3)] s.mem }) (fun s => { s with pc := 0x0202, a := 0x97, flags.c := false, flags.v := true, flags.z := false, flags.n := true }) &&
     goes (tc 0x0200 [0xF1, 0x40] |> fun s => { s with a := 0x5A, flags.c := true, y := 0x20, mem := poke [(0x0040, 0xF0), (0x0041, 0x12), (0x1310, 0xC3)] s.mem }) (fun s => { s with pc := 0x0202, a := 0x97, flags.c := false, flags.v := true, flags.z := false, flags.n := true })) = true := by decide +kernel

theorem test_AND :
    (goes (tc 0x0200 [0x29, 0x0F] |> fun s => { s with a := 0xF0 }) (fun s => { s with a := 0x00, pc := 0x0202, flags.z := true }) &&
     goes (tc 0x0200 [0x29, 0x81] |> fun s => { s with a := 0xFF }) (fun s => { s with a := 0x81, pc := 0x0202, flags.n := true }) &&
     goes (tc 0x0200 [0x25, 0x10] |> fun s => { s with a := 0x5A, flags.c := true, mem := poke [(0x0010, 0xC3)] s.mem }) (fun s => { s with pc := 0x0202, a := 0x42, flags.z := false, flags.n := false }) &&
     goes (tc 0x0200 [0x35, 0xF8] |> fun s => { s with a := 0x5A, flags.c := true, x := 0x10, mem := poke [(0x0008, 0xC3)] s.mem }) (fun s => { s with pc := 0x0202, a := 0x42, flags.z := false, flags.n := false }) &&
     goes (tc 0x0200 [0x2D, 0x34, 0x12] |> fun s => { s with a := 0x5A, flags.c := true, mem := poke [(0x1234, 0xC3)] s.mem }) (fun s => { s with pc := 0x0203, a := 0x42, flags.z := false, flags.n := false }) &&
     goes (tc 0x0200 [0x3D, 0xFF, 0xFF] |> fun s => { s with a := 0x5A, flags.c := true, x := 0x02, mem := poke [(0x0001, 0xC3)] s.mem }) (fun s => { s with pc := 0x0203, a := 0x42, flags.z := false, flags.n := false }) &&
     goes (tc 0x0200 [0x39, 0xF0, 0x12] |> fun s => { s with a := 0x5A, flags.c := true, y := 0x20, mem := poke [(0x1310, 0xC3)] s.mem }) (fun s => { s with pc := 0x0203, a := 0x42, flags.z := false, flags.n := false }) &&
     goes (tc 0x0200 [0x21, 0xFE] |> fun s => { s with a := 0x5A, flags.c := true, x := 0x01, mem := poke [(0x00FF, 0x00), (0x0000, 0x30), (0x3000, 0xC3)] s.mem }) (fun s => { s with pc := 0x0202, a := 0x42, flags.z := false, flags.n := false }) &&
     goes (tc 0x0200 [0x31, 0x40] |> fun s => { s with a := 0x5A, flags.c := true, y := 0x20, mem := poke [(0x0040, 0xF0), (0x0041, 0x12), (0x1310, 0xC3)] s.mem }) (fun s => { s with pc := 0x0202, a := 0x42, flags.z := false, flags.n := false })) = true := by decide +kernel

theorem test_ORA :
    (goes (tc 0x0200 [0x09, 0x00] |> fun s => { s with a := 0x00 }) (fun s => { s with pc := 0x0202, flags.z := true }) &&
     goes (tc 0x0200 [0x05, 0x10] |> fun s => { s with a := 0x01, mem := poke [(0x0010, 0x80)] s.mem }) (fun s => { s with a := 0x81, pc := 0x0202, flags.n := true }) &&
     goes (tc 0x0200 [0x15, 0xF8] |> fun s => { s with a := 0x5A, flags.c := true, x := 0x10, mem := poke [(0x0008, 0xC3)] s.mem }) (fun s => { s with pc := 0x0202, a := 0xDB, flags.z := false, flags.n := true }) &&
     goes (tc 0x0200 [0x0D, 0x34, 0x12] |> fun s => { s with a := 0x5A, flags.c := true, mem := poke [(0x1234, 0xC3)] s.mem }) (fun s => { s with pc := 0x0203, a := 0xDB, flags.z := false, flags.n := true }) &&
     goes (tc 0x0200 [0x1D, 0xFF, 0xFF] |> fun s => { s with a := 0x5A, flags.c := true, x := 0x02, mem := poke [(0x0001, 0xC3)] s.mem }) (fun s => { s with pc := 0x0203, a := 0xDB, flags.z := false, flags.n := true }) &&
     goes (tc 0x0200 [0x19, 0xF0, 0x12] |> fun s => { s with a := 0x5A, flags.c := true, y := 0x20, mem := poke [(0x1310, 0xC3)] s.mem }) (fun s => { s with pc := 0x0203, a := 0xDB, flags.z := false, flags.n := true }) &&
     goes (tc 0x0200 [0x01, 0xFE] |> fun s => { s with a := 0x5A, flags.c := true, x := 0x01, mem := poke [(0x00FF, 0x00), (0x0000, 0x30), (0x3000, 0xC3)] s.mem }) (fun s => { s with pc := 0x0202, a := 0xDB, flags.z := false, flags.n := true }) &&
     goes (tc 0x0200 [0x11, 0x40] |> fun s => { s with a := 0x5A, flags.c := true, y := 0x20, mem := poke [(0x0040, 0xF0), (0x0041, 0x12), (0x1310, 0xC3)] s.mem }) (fun s => { s with pc := 0x0202, a := 0xDB, flags.z := false, flags.n := true })) = true := by decide +kernel

theorem test_EOR :
    (goes (tc 0x0200 [0x49, 0xFF] |> fun s => { s with a := 0xFF }) (fun s => { s with a := 0x00, pc := 0x0202, flags.z := true }) &&
     goes (tc 0x0200 [0x49, 0xFF] |> fun s => { s with a := 0x0F }) (fun s => { s with a := 0xF0, pc := 0x0202, flags.n := true }) &&
     goes (tc 0x0200 [0x45, 0x10] |> fun s => { s with a := 0x5A, flags.c := true, mem := poke [(0x0010, 0xC3)] s.mem }) (fun s => { s with pc := 0x0202, a := 0x99, flags.z := false, flags.n := true }) &&
     goes (tc 0x0200 [0x55, 0xF8] |> fun s => { s with a := 0x5A, flags.c := true, x := 0x10, mem := poke [(0x0008, 0xC3)] s.mem }) (fun s => { s with pc := 0x0202, a := 0x99, flags.z := false, flags.n := true }) &&
     goes (tc 0x0200 [0x4D, 0x34, 0x12] |> fun s => { s with a := 0x5A, flags.c := true, mem := poke [(0x1234, 0xC3)] s.mem }) (fun s => { s with pc := 0x0203, a := 0x99, flags.z := false, flags.n := true }) &&
     goes (tc 0x0200 [0x5D, 0xFF, 0xFF] |> fun s => { s with a := 0x5A, flags.c := true, x := 0x02, mem := poke [(0x0001, 0xC3)] s.mem }) (fun s => { s with pc := 0x0203, a := 0x99, flags.z := false, flags.n := true }) &&
     goes (tc 0x0200 [0x59, 0xF0, 0x12] |> fun s => { s with a := 0x5A, flags.c := true, y := 0x20, mem := poke [(0x1310, 0xC3)] s.mem }) (fun s => { s with pc := 0x0203, a := 0x99, flags.z := false, flags.n := true }) &&
     goes (tc 0x0200 [0x41, 0xFE] |> fun s => { s with a := 0x5A, flags.c := true, x := 0x01, mem := poke [(0x00FF, 0x00), (0x0000, 0x30), (0x3000, 0xC3)] s.mem }) (fun s => { s with pc := 0x0202, a := 0x99, flags.z := false, flags.n := true }) &&
     goes (tc 0x0200 [0x51, 0x40] |> fun s => { s with a := 0x5A, flags.c := true, y := 0x20, mem := poke [(0x0040, 0xF0), (0x0041, 0x12), (0x1310, 0xC3)] s.mem }) (fun s => { s with pc := 0x0202, a := 0x99, flags.z := false, flags.n := true })) = true := by decide +kernel

theorem test_ASL :
    (goes (tc 0x0200 [0x0A] |> fun s => { s with a := 0x81 }) (fun s => { s with a := 0x02, pc := 0x0201, flags.c := true }) &&
     goes (tc 0x0200 [0x0A] |> fun s => { s with a := 0x80 }) (fun s => { s with a := 0x00, pc := 0x0201, flags.z := true, flags.c := true }) &&
     goes (tc 0x0200 [0x06, 0x10] |> fun s => { s with mem := poke [(0x0010, 0x40)] s.mem }) (fun s => { s with pc := 0x0202, flags.n := true, mem := poke [(0x0010, 0x80)] s.mem }) &&
     goes (tc 0x0200 [0x0E, 0x00, 0xD0] |> fun s => { s with mem := poke [(0xD000, 0x80)] s.mem }) (fun s => { s with pc := 0x0203, flags.z := true, flags.c := true }) &&
     goes (tc 0x0200 [0x16, 0xF8] |> fun s => { s with a := 0x5A, flags.c := true, x := 0x10, mem := poke [(0x0008, 0xC3)] s.mem }) (fun s => { s with pc := 0x0202, flags.c := true, flags.z := false, flags.n := true, mem := poke [(0x0008, 0x86)] s.mem }) &&
     goes (tc 0x0200 [0x1E, 0xFF, 0xFF] |> fun s => { s with a := 0x5A, flags.c := true, x := 0x02, mem := poke [(0x0001, 0xC3)] s.mem }) (fun s => { s with pc := 0x0203, flags.c := true, flags.z := false, flags.n := true, mem := poke [(0x0001, 0x86)] s.mem })) = true := by decide +kernel

theorem test_LSR :
    (goes (tc 0x0200 [0x4A] |> fun s => { s with a := 0x01, flags.n := true }) (fun s => { s with a := 0x00, pc := 0x0201, flags.n := false, flags.z := true, flags.c := true }) &&
     goes (tc 0x0200 [0x4A] |> fun s => { s with a := 0xFE }) (fun s => { s with a := 0x7F, pc := 0x0201 }) &&
     goes (tc 0x0200 [0x56, 0x10] |> fun s => { s with x := 0x01, mem := poke [(0x0011, 0x03)] s.mem }) (fun s => { s with pc := 0x0202, flags.c := true, mem := poke [(0x0011, 0x01)] s.mem }) &&
     goes (tc 0x0200 [0x46, 0x10] |> fun s => { s with a := 0x5A, flags.c := true, mem := poke [(0x0010, 0xC3)] s.mem }) (fun s => { s with pc := 0x0202, flags.c := true, flags.z := false, flags.n := false, mem := poke [(0x0010, 0x61)] s.mem }) &&
     goes (tc 0x0200 [0x4E, 0x34, 0x12] |> fun s => { s with a := 0x5A, flags.c := true, mem := poke [(0x1234, 0xC3)] s.mem }) (fun s => { s with pc := 0x0203, flags.c := true, flags.z := false, flags.n := false, mem := poke [(0x1234, 0x61)] s.mem }) &&
     goes (tc 0x0200 [0x5E, 0xFF, 0xFF] |> fun s => { s with a := 0x5A, flags.c := true, x := 0x02, mem := poke [(0x0001, 0xC3)] s.mem }) (fun s => { s with pc := 0x0203, flags.c := true, flags.z := false, flags.n := false, mem := poke [(0x0001, 0x61)] s.mem })) = true := by decide +kernel

theorem test_ROL :
    (goes (tc 0x0200 [0x2A] |> fun s => { s with a := 0x80 }) (fun s => { s with a := 0x00, pc := 0x0201, flags.z := true, flags.c := true }) &&
     goes (tc 0x0200 [0x2A] |> fun s => { s with a := 0x40, flags.c := true }) (fun s => { s with a := 0x81, pc := 0x0201, flags.n := true, flags.c := false }) &&
     goes (tc 0x0200 [0x3E, 0x00, 0x20] |> fun s => { s with x := 0x05, flags.c := true, mem := poke [(0x2005, 0xFF)] s.mem }) (fun s => { s with pc := 0x0203, flags.n := true, dirty := true }) &&
     goes (tc 0x0200 [0x26, 0x10] |> fun s => { s with a := 0x5A, flags.c := true, mem := poke [(0x0010, 0xC3)] s.mem }) (fun s => { s with pc := 0x0202, flags.c := true, flags.z := false, flags.n := true, mem := poke [(0x0010, 0x87)] s.mem }) &&
     goes (tc 0x0200 [0x36, 0xF8] |> fun s => { s with a := 0x5A, flags.c := true, x := 0x10, mem := poke [(0x0008, 0xC3)] s.mem }) (fun s => { s with pc := 0x0202, flags.c := true, flags.z := false, flags.n := true, mem := poke [(0x0008, 0x87)] s.mem }) &&
     goes (tc 0x0200 [0x2E, 0x34, 0x12] |> fun s => { s with a := 0x5A, flags.c := true, mem := poke [(0x1234, 0xC3)] s.mem }) (fun s => { s with pc := 0x0203, flags.c := true, flags.z := false, flags.n := true, mem := poke [(0x1234, 0x87)] s.mem })) = true := by decide +kernel

theorem test_ROR :
    (goes (tc 0x0200 [0x6A] |> fun s => { s with a := 0x01 }) (fun s => { s with a := 0x00, pc := 0x0201, flags.z := true, flags.c := true }) &&
     goes (tc 0x0200 [0x6A] |> fun s => { s with a := 0x01, flags.c := true }) (fun s => { s with a := 0x80, pc := 0x0201, flags.n := true }) &&
     goes (tc 0x0200 [0x6A] |> fun s => { s with a := 0x00, flags.c := true }) (fun s => { s with a := 0x80, pc := 0x0201, flags.n := true, flags.c := false }) &&
     goes (tc 0x0200 [0x66, 0x10] |> fun s => { s with flags.c := false, mem := poke [(0x0010, 0x02)] s.mem }) (fun s => { s with pc := 0x0202, mem := poke [(0x0010, 0x01)] s.mem }) &&
     goes (tc 0x0200 [0x76, 0xF8] |> fun s => { s with a := 0x5A, flags.c := true, x := 0x10, mem := poke [(0x0008, 0xC3)] s.mem }) (fun s => { s with pc := 0x0202, flags.c := true, flags.z := false, flags.n := true, mem := poke [(0x0008, 0xE1)] s.mem }) &&
     goes (tc 0x0200 [0x6E, 0x34, 0x12] |> fun s => { s with a := 0x5A, flags.c := true, mem := poke [(0x1234, 0xC3)] s.mem }) (fun s => { s with pc := 0x0203, flags.c := true, flags.z := false, flags.n := true, mem := poke [(0x1234, 0xE1)] s.mem }) &&
     goes (tc 0x0200 [0x7E, 0xFF, 0xFF] |> fun s => { s with a := 0x5A, flags.c := true, x := 0x02, mem := poke [(0x0001, 0xC3)] s.mem }) (fun s => { s with pc := 0x0203, flags.c := true, flags.z := false, flags.n := true, mem := poke [(0x0001, 0xE1)] s.mem })) = true := by decide +kernel

theorem test_CMP :
    (goes (tc 0x0200 [0xC9, 0x01] |> fun s => { s with a := 0x10, flags.d := true }) (fun s => { s with pc := 0x0202, flags.c := true }) &&
     goes (tc 0x0200 [0xC9, 0x10] |> fun s => { s with a := 0x20 }) (fun s => { s with pc := 0x0202, flags.c := true }) &&
     goes (tc 0x0200 [0xC9, 0x20] |> fun s => { s with a := 0x20 }) (fun s => { s with pc := 0x0202, flags.z := true, flags.c := true }) &&
     goes (tc 0x0200 [0xC9, 0x21] |> fun s => { s with a := 0x20 }) (fun s => { s with pc := 0x0202, flags.n := true }) &&
     goes (tc 0x0200 [0xC9, 0x01] |> fun s => { s with a := 0x81 }) (fun s => { s with pc := 0x0202, flags.n := true, flags.c := true }) &&
     goes (tc 0x0200 [0xC9, 0x80] |> fun s => { s with a := 0x00 }) (fun s => { s with pc := 0x0202, flags.n := true }) &&
     goes (tc 0x0200 [0xC9, 0x00] |> fun s => { s with a := 0x00, flags.v := true }) (fun s => { s with pc := 0x0202, flags.z := true, flags.c := true }) &&
     goes (tc 0x0200 [0xC5, 0x10] |> fun s => { s with a := 0x5A, flags.c := true, mem := poke [(0x0010, 0xC3)] s.mem }) (fun s => { s with pc := 0x0202, flags.c := false, flags.z := false, flags.n := true }) &&
     goes (tc 0x0200 [0xD5, 0xF8] |> fun s => { s with a := 0x5A, flags.c := true, x := 0x10, mem := poke [(0x0008, 0xC3)] s.mem }) (fun s => { s with pc := 0x0202, flags.c := false, flags.z := false, flags.n := true }) &&
     goes (tc 0x0200 [0xCD, 0x34, 0x12] |> fun s => { s with a := 0x5A, flags.c := true, mem := poke [(0x1234, 0xC3)] s.mem }) (fun s => { s with pc := 0x0203, flags.c := false, flags.z := false, flags.n := true }) &&
     goes (tc 0x0200 [0xDD, 0xFF, 0xFF] |> fun s => { s with a := 0x5A, flags.c := true, x := 0x02, mem := poke [(0x0001, 0xC3)] s.mem }) (fun s => { s with pc := 0x0203, flags.c := false, flags.z := false, flags.n := true }) &&
     goes (tc 0x0200 [0xD9, 0xF0, 0x12] |> fun s => { s with a := 0x5A, flags.c := true, y := 0x20, mem := poke [(0x1310, 0xC3)] s.mem }) (fun s => { s with pc := 0x0203, flags.c := false, flags.z := false, flags.n := true }) &&
     goes (tc 0x0200 [0xC1, 0xFE] |> fun s => { s with a := 0x5A, flags.c := true, x := 0x01, mem := poke [(0x00FF, 0x00), (0x0000, 0x30), (0x3000, 0xC3)] s.mem }) (fun s => { s with pc := 0x0202, flags.c := false, flags.z := false, flags.n := true }) &&
     goes (tc 0x0200 [0xD1, 0x40] |> fun s => { s with a := 0x5A, flags.c := true, y := 0x20, mem := poke [(0x0040, 0xF0), (0x0041, 0x12), (0x1310, 0xC3)] s.mem }) (fun s => { s with pc := 0x0202, flags.c := false, flags.z := false, flags.n := true })) = true := by decide +kernel

theorem test_CPX :
    (goes (tc 0x0200 [0xE4, 0x10] |> fun s => { s with x := 0x05, mem := poke [(0x0010, 0x06)] s.mem }) (fun s => { s with pc := 0x0202, flags.n := true }) &&
     goes (tc 0x0200 [0xE0, 0xFF] |> fun s => { s with x := 0xFF }) (fun s => { s with pc := 0x0202, flags.z := true, flags.c := true }) &&
     goes (tc 0x0200 [0xEC, 0x34, 0x12] |> fun s => { s with a := 0x5A, flags.c := true, x := 0x5A, mem := poke [(0x1234, 0xC3)] s.mem }) (fun s => { s with pc := 0x0203, flags.c := false, flags.z := false, flags.n := true })) = true := by decide +kernel

theorem test_CPY :
    (goes (tc 0x0200 [0xCC, 0x00, 0x10] |> fun s => { s with y := 0x00, mem := poke [(0x1000, 0xFF)] s.mem }) (fun s => { s with pc := 0x0203 }) &&
     goes (tc 0x0200 [0xC0, 0x00] |> fun s => { s with y := 0x80 }) (fun s => { s with pc := 0x0202, flags.n := true, flags.c := true }) &&
     goes (tc 0x0200 [0xC4, 0x10] |> fun s => { s with a := 0x5A, flags.c := true, y := 0x5A, mem := poke [(0x0010, 0xC3)] s.mem }) (fun s => { s with pc := 0x0202, flags.c := false, flags.z := false, flags.n := true })) = true := by decide +kernel

theorem test_INC :
    (goes (tc 0x0200 [0xE6, 0x10] |> fun s => { s with mem := poke [(0x0010, 0xFF)] s.mem }) (fun s => { s with pc := 0x0202, flags.z := true, mem := poke [(0x0010, 0x00)] s.mem }) &&
     goes (tc 0x0200 [0xE6, 0x10] |> fun s => { s with mem := poke [(0x0010, 0x7F)] s.mem }) (fun s => { s with pc := 0x0202, flags.n := true, mem := poke [(0x0010, 0x80)] s.mem }) &&
     goes (tc 0x0200 [0xEE, 0x00, 0xE0] |> fun s => { s with mem := poke [(0xE000, 0xFF)] s.mem }) (fun s => { s with pc := 0x0203, flags.z := true }) &&
     goes (tc 0x0200 [0xFE, 0x00, 0x20] |> fun s => { s with x := 0x01, mem := poke [(0x2001, 0x01)] s.mem }) (fun s => { s with pc := 0x0203, dirty := true, mem := poke [(0x2001, 0x02)] s.mem }) &&
     goes (tc 0x0200 [0xF6, 0xF8] |> fun s => { s with a := 0x5A, flags.c := true, x := 0x10, mem := poke [(0x0008, 0xC3)] s.mem }) (fun s => { s with pc := 0x0202, flags.z := false, flags.n := true, mem := poke [(0x0008, 0xC4)] s.mem })) = true := by decide +kernel

theorem test_DEC :
    (goes (tc 0x0200 [0xC6, 0x10] |> fun s => { s with mem := poke [(0x0010, 0x00)] s.mem }) (fun s => { s with pc := 0x0202, flags.n := true, mem := poke [(0x0010, 0xFF)] s.mem }) &&
     goes (tc 0x0200 [0xD6, 0x10] |> fun s => { s with x := 0xF0, mem := poke [(0x0000, 0x01)] s.mem }) (fun s => { s with pc := 0x0202, flags.z := true, mem := poke [(0x0000, 0x00)] s.mem }) &&
     goes (tc 0x0200 [0xCE, 0x34, 0x12] |> fun s => { s with a := 0x5A, flags.c := true, mem := poke [(0x1234, 0xC3)] s.mem }) (fun s => { s with pc := 0x0203, flags.z := false, flags.n := true, mem := poke [(0x1234, 0xC2)] s.mem }) &&
     goes (tc 0x0200 [0xDE, 0xFF, 0xFF] |> fun s => { s with a := 0x5A, flags.c := true, x := 0x02, mem := poke [(0x0001, 0xC3)] s.mem }) (fun s => { s with pc := 0x0203, flags.z := false, flags.n := true, mem := poke [(0x0001, 0xC2)] s.mem })) = true := by decide +kernel

theorem test_INX :
    (goes (tc 0x0200 [0xE8] |> fun s => { s with x := 0xFF }) (fun s => { s with x := 0x00, pc := 0x0201, flags.z := true })) = true := by decide +kernel

theorem test_INY :
    (goes (tc 0x0200 [0xC8] |> fun s => { s with y := 0x7F }) (fun s => { s with y := 0x80, pc := 0x0201, flags.n := true })) = true := by decide +kernel

theorem test_DEX :
    (goes (tc 0x0200 [0xCA] |> fun s => { s with x := 0x00 }) (fun s => { s with x := 0xFF, pc := 0x0201, flags.n := true })) = true := by decide +kernel

theorem test_DEY :
    (goes (tc 0x0200 [0x88] |> fun s => { s with y := 0x01 }) (fun s => { s with y := 0x00, pc := 0x0201, flags.z := true })) = true := by decide +kernel

theorem test_BIT :
    (goes (tc 0x0200 [0x24, 0x20] |> fun s => { s with a := 0x01, mem := poke [(0x0020, 0x41)] s.mem }) (fun s => { s with pc := 0x0202, flags.v := true }) &&
     goes (tc 0x0200 [0x24, 0x20] |> fun s => { s with a := 0x3F, mem := poke [(0x0020, 0xC0)] s.mem }) (fun s => { s with pc := 0x0202, flags.n := true, flags.v := true, flags.z := true }) &&
     goes (tc 0x0200 [0x2C, 0x00, 0x10] |> fun s => { s with a := 0x00, flags.v := true, flags.n := true, flags.c := true, mem := poke [(0x1000, 0x3F)] s.mem }) (fun s => { s with pc := 0x0203, flags.n := false, flags.v := false, flags.z := true })) = true := by decide +kernel

theorem test_TAX :
    (goes (tc 0x0200 [0xAA] |> fun s => { s with a := 0x00, x := 0x12 }) (fun s => { s with x := 0x00, pc := 0x0201, flags.z := true })) = true := by decide +kernel

theorem test_TAY :
    (goes (tc 0x0200 [0xA8] |> fun s => { s with a := 0x80 }) (fun s => { s with y := 0x80, pc := 0x0201, flags.n := true })) = true := by decide +kernel

theorem test_TXA :
    (goes (tc 0x0200 [0x8A] |> fun s => { s with x := 0x7F, a := 0xFF, flags.n := true }) (fun s => { s with a := 0x7F, pc := 0x0201, flags.n := false })) = true := by decide +kernel

theorem test_TYA :
    (goes (tc 0x0200 [0x98] |> fun s => { s with y := 0x00, a := 0x01 }) (fun s => { s with a := 0x00, pc := 0x0201, flags.z := true })) = true := by decide +kernel

theorem test_TSX :
    (goes (tc 0x0200 [0xBA] |> fun s => { s with sp := 0xFD }) (fun s => { s with x := 0xFD, pc := 0x0201, flags.n := true }) &&
     goes (tc 0x0200 [0xBA] |> fun s => { s with sp := 0x00, x := 0x05 }) (fun s => { s with x := 0x00, pc := 0x0201, flags.z := true })) = true := by decide +kernel

theorem test_TXS :
    (goes (tc 0x0200 [0x9A] |> fun s => { s with x := 0x00, flags.z := false, flags.n := true }) (fun s => { s with sp := 0x00, pc := 0x0201 })) = true := by decide +kernel

theorem test_PHA :
    (goes (tc 0x0200 [0x48] |> fun s => { s with a := 0x42 }) (fun s => { s with sp := 0xFE, pc := 0x0201, mem := poke [(0x01FF, 0x42)] s.mem }) &&
     goes (tc 0x0200 [0x48] |> fun s => { s with a := 0x42, sp := 0x00 }) (fun s => { s with sp := 0xFF, pc := 0x0201, mem := poke [(0x0100, 0x42)] s.mem })) = true := by decide +kernel

theorem test_PLA :
    (goes (tc 0x0200 [0x68] |> fun s => { s with sp := 0xFE, mem := poke [(0x01FF, 0x80)] s.mem }) (fun s => { s with a := 0x80, sp := 0xFF, pc := 0x0201, flags.n := true }) &&
     goes (tc 0x0200 [0x68] |> fun s => { s with sp := 0xFF, mem := poke [(0x0100, 0x00)] s.mem }) (fun s => { s with sp := 0x00, pc := 0x0201, flags.z := true })) = true := by decide +kernel

theorem test_PHP :
    (goes (tc 0x0200 [0x08] |> fun s => { s with flags.c := true, flags.n := true }) (fun s => { s with sp := 0xFE, pc := 0x0201, mem := poke [(0x01FF, 0xB1)] s.mem }) &&
     goes (tc 0x0200 [0x08]) (fun s => { s with sp := 0xFE, pc := 0x0201, mem := poke [(0x01FF, 0x30)] s.mem })) = true := by decide +kernel

theorem test_PLP :
    (goes (tc 0x0200 [0x28] |> fun s => { s with sp := 0xFE, mem := poke [(0x01FF, 0xFF)] s.mem }) (fun s => { s with sp := 0xFF, pc := 0x0201, flags.n := true, flags.v := true, flags.b := true, flags.d := true, flags.i := true, flags.z := true, flags.c := true }) &&
     goes (tc 0x0200 [0x28] |> fun s => { s with sp := 0xFE, flags.c := true, flags.z := true, flags.i := true, flags.d := true, flags.b := true, flags.v := true, flags.n := true, mem := poke [(0x01FF, 0x00)] s.mem }) (fun s => { s with sp := 0xFF, pc := 0x0201, flags.n := false, flags.v := false, flags.b := false, flags.d := false, flags.i := false, flags.z := false, flags.c := false })) = true := by decide +kernel

theorem test_JMP :
    (goes (tc 0x0200 [0x4C, 0x34, 0x12]) (fun s => { s with pc := 0x1234 }) &&
     goes (tc 0x0200 [0x6C, 0x00, 0x03] |> fun s => { s with mem := poke [(0x0300, 0x00), (0x0301, 0x80)] s.mem }) (fun s => { s with pc := 0x8000 }) &&
     goes (tc 0x0600 [0x6C, 0xFF, 0x02] |> fun s => { s with mem := poke [(0x0200, 0x56), (0x02FF, 0x34), (0x0300, 0x12)] s.mem }) (fun s => { s with pc := 0x1234 }) &&
     goes (tc 0x0600 [0x6C, 0xFF, 0x02] |> fun s => { s with mem := poke [(0x0200, 0x56), (0x02FF, 0x34), (0x0300, 0x12)] s.mem, cfg.jmpIndPageWrap := true }) (fun s => { s with pc := 0x5634 })) = true := by decide +kernel

theorem test_JSR :
    (goes (tc 0x0600 [0x20, 0x00, 0x20]) (fun s => { s with sp := 0xFD, pc := 0x2000, mem := poke [(0x01FE, 0x02), (0x01FF, 0x06)] s.mem }) &&
     goes (tc 0x0600 [0x20, 0x00, 0x20] |> fun s => { s with sp := 0x00 }) (fun s => { s with sp := 0xFE, pc := 0x2000, mem := poke [(0x0100, 0x06), (0x01FF, 0x02)] s.mem })) = true := by decide +kernel

theorem test_RTS :
    (goes (tc 0x0200 [0x60] |> fun s => { s with sp := 0xFD, mem := poke [(0x01FE, 0x02), (0x01FF, 0x06)] s.mem }) (fun s => { s with sp := 0xFF, pc := 0x0603 }) &&
     goes (tc 0x0200 [0x60] |> fun s => { s with sp := 0xFD, mem := poke [(0x01FE, 0xFF), (0x01FF, 0xFF)] s.mem }) (fun s => { s with sp := 0xFF, pc := 0x0000 })) = true := by decide +kernel

theorem test_BRK :
    (goes (tc 0x0200 [0x00, 0xEA] |> fun s => { s with flags.c := true, flags.v := true, mem := poke [(0xFFFE, 0x00), (0xFFFF, 0x90)] s.mem }) (fun s => { s with sp := 0xFC, pc := 0x9000, flags.i := true, mem := poke [(0x01FD, 0x71), (0x01FE, 0x02), (0x01FF, 0x02)] s.mem })) = true := by decide +kernel

theorem test_RTI :
    (goes (tc 0x0200 [0x40] |> fun s => { s with sp := 0xFC, flags.b := false, flags.i := true, mem := poke [(0x01FD, 0x71), (0x01FE, 0x09), (0x01FF, 0x00)] s.mem }) (fun s => { s with sp := 0xFF, pc := 0x0009, flags.v := true, flags.i := false, flags.c := true }) &&
     goes (tc 0x0200 [0x40] |> fun s => { s with sp := 0xFC, flags.b := true, mem := poke [(0x01FD, 0xC0), (0x01FE, 0x34), (0x01FF, 0x12)] s.mem }) (fun s => { s with sp := 0xFF, pc := 0x1234, flags.n := true, flags.v := true })) = true := by decide +kernel

theorem test_BCC :
    (goes (tc 0x0200 [0x90, 0xFA]) (fun s => { s with pc := 0x01FC }) &&
     goes (tc 0x0200 [0x90, 0xFA] |> fun s => { s with flags.c := true }) (fun s => { s with pc := 0x0202 })) = true := by decide +kernel

theorem test_BCS :
    (goes (tc 0x0200 [0xB0, 0x10] |> fun s => { s with flags.c := true }) (fun s => { s with pc := 0x0212 })) = true := by decide +kernel

theorem test_BEQ :
    (goes (tc 0x0200 [0xF0, 0xFE] |> fun s => { s with flags.z := true }) (fun s => { s with pc := 0x0200 }) &&
     goes (tc 0x0200 [0xF0, 0xFE]) (fun s => { s with pc := 0x0202 }) &&
     goes (tc 0x0002 [0xF0, 0xF0] |> fun s => { s with flags.z := true }) (fun s => { s with pc := 0xFFF4 })) = true := by decide +kernel

theorem test_BMI :
    (goes (tc 0x0200 [0x30, 0x7F] |> fun s => { s with flags.n := true }) (fun s => { s with pc := 0x0281 })) = true := by decide +kernel

theorem test_BNE :
    (goes (tc 0x0200 [0xD0, 0x80]) (fun s => { s with pc := 0x0182 }) &&
     goes (tc 0xFFF0 [0xD0, 0x10]) (fun s => { s with pc := 0x0002 })) = true := by decide +kernel

theorem test_BPL :
    (goes (tc 0x0200 [0x10, 0x00]) (fun s => { s with pc := 0x0202 }) &&
     goes (tc 0x0200 [0x10, 0x05] |> fun s => { s with flags.n := true }) (fun s => { s with pc := 0x0202 })) = true := by decide +kernel

theorem test_BVC :
    (goes (tc 0x0200 [0x50, 0x02]) (fun s => { s with pc := 0x0204 })) = true := by decide +kernel

theorem test_BVS :
    (goes (tc 0x0200 [0x70, 0x02] |> fun s => { s with flags.v := true }) (fun s => { s with pc := 0x0204 }) &&
     goes (tc 0x0200 [0x70, 0x02]) (fun s => { s with pc := 0x0202 })) = true := by decide +kernel

theorem test_SEC :
    (goes (tc 0x0200 [0x38]) (fun s => { s with pc := 0x0201, flags.c := true })) = true := by decide +kernel

theorem test_CLC :
    (goes (tc 0x0200 [0x18] |> fun s => { s with flags.c := true }) (fun s => { s with pc := 0x0201, flags.c := false })) = true := by decide +kernel

theorem test_SED :
    (goes (tc 0x0200 [0xF8]) (fun s => { s with pc := 0x0201, flags.d := true })) = true := by decide +kernel

theorem test_CLD :
    (goes (tc 0x0200 [0xD8] |> fun s => { s with flags.d := true }) (fun s => { s with pc := 0x0201, flags.d := false })) = true := by decide +kernel

theorem test_SEI :
    (goes (tc 0x0200 [0x78]) (fun s => { s with pc := 0x0201, flags.i := true })) = true := by decide +kernel

theorem test_CLI :
    (goes (tc 0x0200 [0x58] |> fun s => { s with flags.i := true }) (fun s => { s with pc := 0x0201, flags.i := false })) = true := by decide +kernel

theorem test_CLV :
    (goes (tc 0x0200 [0xB8] |> fun s => { s with flags.v := true }) (fun s => { s with pc := 0x0201, flags.v := false })) = true := by decide +kernel

theorem test_NOP :
    (goes (tc 0x0200 [0xEA]) (fun s => { s with pc := 0x0201 }) &&
     goes (tc 0xFFFF [0xEA]) (fun s => { s with pc := 0x0000 })) = true := by decide +kernel

/-- Soft switches, the strobe, the ROM, undefined opcodes, intercepted fetches and the breakpoint (section 3.8). -/
theorem test_devices_and_stops :
    (goes (tc 0x0200 [0x6E, 0x50, 0xC0] |> fun s => { s with flags.c := true }) (fun s => { s with pc := 0x0203, flags.n := true, flags.c := false, sw.graphics := true }) &&
     stops (tc 0x0200 [0x6C, 0x50, 0xC0]) (.unmodelled .deviceFetch 0xC050) &&
     stops (tc 0x0200 [0x02] |> fun s => { s with a := 0x11 }) (.halted (.undefinedOpcode 0x02 0x0200)) &&
     stops (tc 0x0200 [0xFF]) (.halted (.undefinedOpcode 0xFF 0x0200)) &&
     stops (tc 0x0200 [0xA9, 0x01] |> fun s => { s with cfg.implemented := assignedOpcodes.erase 0xA9 }) (.halted (.undefinedOpcode 0xA9 0x0200)) &&
     goes (tc 0x0200 [0xAD, 0x50, 0xC0]) (fun s => { s with pc := 0x0203, flags.z := true, sw.graphics := true }) &&
     goes (tc 0x0200 [0x8D, 0x50, 0xC0] |> fun s => { s with a := 0xFF }) (fun s => { s with pc := 0x0203, sw.graphics := true }) &&
     goes (tc 0x0200 [0xEE, 0x50, 0xC0]) (fun s => { s with pc := 0x0203, sw.graphics := true }) &&
     goes (tc 0x0200 [0xAD, 0x00, 0xC0] |> fun s => { s with mem := poke [(0xC000, 0xC1)] s.mem }) (fun s => { s with a := 0xC1, pc := 0x0203, flags.n := true }) &&
     goes (tc 0x0200 [0xAD, 0x10, 0xC0] |> fun s => { s with mem := poke [(0xC000, 0xC1)] s.mem }) (fun s => { s with pc := 0x0203, flags.z := true, mem := poke [(0xC000, 0x41)] s.mem }) &&
     goes (tc 0x0200 [0x8D, 0x1F, 0xC0] |> fun s => { s with a := 0x00, mem := poke [(0xC000, 0xC1)] s.mem }) (fun s => { s with pc := 0x0203, mem := poke [(0xC000, 0x41)] s.mem }) &&
     goes (tc 0x0200 [0xAD, 0x20, 0xC0] |> fun s => { s with mem := poke [(0xC000, 0xC1)] s.mem }) (fun s => { s with pc := 0x0203, flags.z := true }) &&
     stops (tc 0xC04E [0xA9, 0xC0] |> fun s => { s with cfg.softSwitches := [(0xC050, .graphics), (0xC04F, .split)] }) (.unmodelled .deviceFetch 0xC04F) &&
     stops (tc 0xC010 [0xEA]) (.unmodelled .deviceFetch 0xC010) &&
     stops (tc 0xC04E [0xAD, 0x50, 0xC0]) (.unmodelled .deviceFetch 0xC050) &&
     breaks (tc 0x0200 [0xEA] |> fun s => { s with breakpoint := some 1 }) (fun s => { s with pc := 0x0201 })) = true := by decide +kernel

/-! Witnesses: for each obligation with hypotheses, states and operands that meet them, clause by clause. -/

/-- The step of this state answers a next state. -/
def completes (s : State) : Bool :=
  match step s with
  | .next _ => true
  | _ => false

/-- This instruction answers a next state, and `p` holds of it. -/
def execGives (i : Instr) (s : State) (p : State → Bool) : Bool :=
  match exec i s with
  | .next t => p t
  | _ => false

theorem completes_next {s : State} (h : completes s = true) : ∃ t, step s = .next t := by
  unfold completes at h
  split at h
  · exact ⟨_, ‹_›⟩
  · cases h

theorem execGives_next {i : Instr} {s : State} {p : State → Bool} (h : execGives i s p = true) :
    ∃ t, exec i s = .next t ∧ p t = true := by
  unfold execGives at h
  split at h
  · exact ⟨_, ‹_›, h⟩
  · cases h

/-- A state that no clause below needs more of: a NOP at 0x0200. -/
def plain : State := tc 0x0200 [0xEA]

theorem witness_EncodeThenDecodeGivesBack :
    decode (encode (.staAbsx 0x1234) ++ [0xFF]) = .ok (.staAbsx 0x1234, [0xFF]) := rfl

theorem witness_DecodedBytesEncodeBack : decode [0xA5, 0x08, 0x65] = .ok (.ldaZp 0x08, [0x65]) := rfl

/-- Clauses: unassigned; not implemented; the converse. -/
theorem witness_UndefinedOpcodeHalts :
    (let s := tc 0x0200 [0x02]
     intercepted s.cfg s.pc = false ∧ (∀ i : Instr, opcode i ≠ s.mem.read s.pc) ∧
       step s = .fault (.undefinedOpcode 0x02 0x0200)) ∧
    (let s := { tc 0x0200 [0xA9] with cfg.implemented := assignedOpcodes.erase 0xA9 }
     intercepted s.cfg s.pc = false ∧ s.mem.read s.pc ∉ s.cfg.implemented) := by
  refine ⟨⟨by decide +kernel, fun i => ?_, rfl⟩, by decide +kernel⟩
  have h : (tc 0x0200 [0x02]).mem.read (tc 0x0200 [0x02]).pc = 0x02 := by decide +kernel
  rw [h]
  cases i <;> simp [opcode]

theorem witness_StepRunsDecodedInstruction :
    (let s := tc 0xFFFF [0xA9]
     let i := Instr.ldaImm 0x00
     decode [s.mem.read s.pc, s.mem.read (s.pc + 1), s.mem.read (s.pc + 2)] = .ok (i, [0x00]) ∧
     i.wellFormed s.cfg = true ∧
     ∀ k, k < i.operand.mode.length → intercepted s.cfg (s.pc + BitVec.ofNat 16 k) = false) ∧
    (let s := tc 0x0200 [0x6C, 0x50, 0xC0]
     let i := Instr.jmpInd 0xC050
     decode [s.mem.read s.pc, s.mem.read (s.pc + 1), s.mem.read (s.pc + 2)] = .ok (i, []) ∧
     i.wellFormed s.cfg = true ∧
     ∀ k, k < i.operand.mode.length → intercepted s.cfg (s.pc + BitVec.ofNat 16 k) = false) := by
  refine ⟨⟨rfl, by decide +kernel, by decide +kernel⟩, ⟨rfl, by decide +kernel, by decide +kernel⟩⟩

/-- The clauses of R249 in their order: the opcode's address, the opcode, the second byte, the third byte, the pointer's first byte,
its second byte, and a step that passes them all. The address
reported is the first intercepted one (R245). -/
theorem witness_FetchChecksInOrder :
    (stops (tc 0xC010 [0xEA]) (.unmodelled .deviceFetch 0xC010) &&
     stops (tc 0xC01F [0x02]) (.unmodelled .deviceFetch 0xC01F) &&
     stops (tc 0xC020 [0x02]) (.halted (.undefinedOpcode 0x02 0xC020)) &&
     stops (tc 0xC00F [0xA9]) (.unmodelled .deviceFetch 0xC010) &&
     stops (tc 0xC00E [0xAD, 0x00]) (.unmodelled .deviceFetch 0xC010) &&
     stops (tc 0x0200 [0x6C, 0x10, 0xC0]) (.unmodelled .deviceFetch 0xC010) &&
     stops (tc 0x0200 [0x6C, 0x0F, 0xC0]) (.unmodelled .deviceFetch 0xC010) &&
     stops (tc 0x0200 [0x6C, 0x1F, 0xC0]) (.unmodelled .deviceFetch 0xC01F) &&
     completes (tc 0xC00F [0xEA]) && completes (tc 0x0200 [0x6C, 0x0E, 0xC0])) = true ∧
    opcode (.jmpInd 0xC010) = 0x6C ∧ (0x6C : Byte) ∈ resetConfig.implemented := by
  refine ⟨by decide +kernel, rfl, by decide +kernel⟩

theorem witness_EveryInstructionCompletes :
    (∀ p, (Instr.jmpInd 0xC00E).operand = .indirect p →
      intercepted plain.cfg p = false ∧ intercepted plain.cfg (pointerHigh plain.cfg p) = false) ∧
    (∀ p, (Instr.brk 0xEA).operand = .indirect p →
      intercepted plain.cfg p = false ∧ intercepted plain.cfg (pointerHigh plain.cfg p) = false) := by
  refine ⟨fun p h => ?_, fun p h => ?_⟩ <;> cases h
  decide +kernel

theorem witness_StepKeepsInvariant : plain.Inv ∧ ∃ t, step plain = .next t :=
  ⟨⟨by decide +kernel, by decide +kernel⟩, completes_next (by decide +kernel)⟩

theorem witness_HostActionsKeepInvariant : plain.Inv := ⟨by decide +kernel, by decide +kernel⟩

/-- The shortest image, the longest that leaves the reset vector 0, and the longest of all. -/
theorem witness_ConstructionGivesInitialState :
    configProblem resetConfig ([] : List Byte).length = none ∧
    configProblem resetConfig (List.replicate 0xFFFC (0x01 : Byte)).length = none ∧
    configProblem resetConfig (List.replicate 0x10000 (0x01 : Byte)).length = none := by
  simp only [List.length_replicate, List.length_nil]
  decide +kernel

/-- The three premises on the breakpoint: due, not due, and already passed. -/
theorem witness_BreakpointAfterCountedInstruction :
    (∃ t, step { plain with breakpoint := some 1 } = .next t) ∧ plain.icount + 1 = 1 ∧ (∃ t, step plain = .next t) ∧
    ∃ t u, step { tc 0x0200 [0xEA, 0xEA] with breakpoint := some 1 } = .next t ∧ t.breakpoint = some t.icount ∧ step t = .next u := by
  refine ⟨completes_next (by decide +kernel), by decide +kernel, completes_next (by decide +kernel), _, _, rfl, by decide +kernel, rfl⟩

theorem witness_StoppedStepLeavesState :
    let s := tc 0x0200 [0x02]
    (stepApi true s).1 ≠ .continued ∧ (stepApi true s).1 ≠ .breakpoint := by decide +kernel

/-- Both ends of the strobe window, both addresses next to it, a soft switch and the keyboard byte. -/
theorem witness_AccessTogglesAndClears :
    configOk plain.cfg = true ∧
    [0xC010, 0xC01F].all (inStrobe plain.cfg) = true ∧ [0xC00F, 0xC020, 0xC000].any (inStrobe plain.cfg) = false ∧
    ((0xC050, .graphics) : Addr × Switch) ∈ plain.cfg.softSwitches := by decide +kernel

theorem witness_MemoryModesAccessOnce :
    ((∃ t, exec (.incAbs 0xC050) plain = .next t ∧ true = true) ∧ (Instr.incAbs 0xC050).operand = .memory (.abs 0xC050) ∧
      (0xC051 : Addr) ∉ storedAddrs (.incAbs 0xC050) plain) ∧
    ((∃ t, exec .pha plain = .next t ∧ true = true) ∧ (∀ m, Instr.pha.operand ≠ .memory m) ∧
      (0x01FE : Addr) ∉ storedAddrs .pha plain) := by
  refine ⟨⟨execGives_next (p := fun _ => true) (by decide +kernel), rfl, by decide +kernel⟩,
    ⟨execGives_next (p := fun _ => true) (by decide +kernel), (fun m h => nomatch h), by decide +kernel⟩⟩

/-- A window that is 0xC000 alone races; the window of the test configuration does not. -/
theorem witness_OperandReadIsBackingByte :
    strobeRace 0xC000 { plain with cfg.strobeLo := 0xC000, cfg.strobeHi := 0xC000 } = true ∧ strobeRace 0xC000 plain = false ∧
    strobeRace 0xC010 plain = false := by decide +kernel

/-- The vector of R60: whichever value is drawn, `A` is 0xC1 or 0x41 and the byte is 0x41 afterwards. -/
theorem test_strobe_race :
    let s := { tc 0x0200 [0xAD, 0x00, 0xC0] with cfg.strobeLo := 0xC000, cfg.strobeHi := 0xC00F }
    let s := { s with mem := s.mem.write 0xC000 0xC1 }
    ∃ t, step s = .next t ∧ (t.a = 0xC1 ∨ t.a = 0x41) ∧ t.mem.read 0xC000 = 0x41 ∧ t.draws = 2 := by
  refine ⟨_, rfl, ?_, by decide +kernel, by decide +kernel⟩
  show (if (true && Config.freeBit 1) = true then (0xC1 : Byte) else 0x41) = 0xC1 ∨
    (if (true && Config.freeBit 1) = true then (0xC1 : Byte) else 0x41) = 0x41
  cases Config.freeBit 1 <;> decide

/-- The stack just below and just at the ROM boundary. -/
theorem witness_StackPrimitives :
    (BitVec.ofNat 16 (0x0100 + plain.sp.toNat) : Addr).toNat < plain.cfg.romBoundary.val ∧
    (pulled (push 0x55 { plain with sp := 0x00 }) = 0x55) ∧
    (pulled (push 0x55 { plain with cfg.romBoundary := 0x01FF }) = 0x00) := by decide +kernel

theorem witness_MemoryReadsBackWrites :
    Memory.wf (Memory.write [] 0xFFFF 0x80) = true ∧ Memory.wf (Memory.write (Memory.write [] 0xFFFF 0x80) 0xFFFF 0x00) = true ∧
    Memory.write (Memory.write [] 0xFFFF 0x80) 0xFFFF 0x00 = [] := by decide +kernel

/-- Two states that differ in a byte and a register, and agree on what a fetch reads. -/
theorem witness_FetchSeesMemoryAsItStands :
    let s := tc 0xFFFE [0xAD, 0x34, 0x12]
    let t := { s with a := 0x55, mem := s.mem.write 0x0001 0x99 }
    s.cfg = t.cfg ∧ s.pc = t.pc ∧ s.mem ≠ t.mem ∧
    ∀ k, k < 3 → s.mem.read (s.pc + BitVec.ofNat 16 k) = t.mem.read (s.pc + BitVec.ofNat 16 k) := by decide +kernel

/-- A discarded store at the boundary, and the one write that passes it. -/
theorem witness_RomNeverWritten :
    (completes { tc 0x0200 [0x8D, 0x00, 0xC0] with a := 0x77 } = true ∧
      plain.cfg.romBoundary.val ≤ (0xC000 : Addr).toNat) ∧
    (let s := tc 0x0200 [0xAD, 0x1F, 0xC0]
     let s := { s with mem := s.mem.write 0xC000 0xC1 }
     goes s (fun s => { s with pc := 0x0203, flags.z := true, mem := s.mem.write 0xC000 0x41 }) = true) := by
  refine ⟨by decide +kernel, by decide +kernel⟩

theorem witness_StoredBytesFrame :
    (∃ t, exec (.staAbs 0x1000) plain = .next t ∧ true = true) ∧ (0x0FFF : Addr) ∉ storedAddrs (.staAbs 0x1000) plain ∧
    (∃ t, exec (.staAbs 0xC020) plain = .next t ∧ true = true) ∧ (0xC000 : Addr) ∉ storedAddrs (.staAbs 0xC020) plain ∧
    (∀ m, (Instr.staAbs 0xC020).operand = .memory m → inStrobe plain.cfg (effectiveAddr m plain) = false) := by
  refine ⟨execGives_next (p := fun _ => true) (by decide +kernel), by decide +kernel,
    execGives_next (p := fun _ => true) (by decide +kernel), by decide +kernel, fun m h => ?_⟩
  cases h
  decide +kernel

theorem witness_WritersOfRegisters :
    (∃ t, exec (.ldaImm 1) plain = .next t ∧ decide (t.a ≠ plain.a) = true) ∧
    (∃ t, exec .aslAcc { plain with a := 1 } = .next t ∧ decide (t.a ≠ 1) = true) ∧
    (∃ t, exec .inx plain = .next t ∧ decide (t.x ≠ plain.x) = true) ∧
    (∃ t, exec .dey plain = .next t ∧ decide (t.y ≠ plain.y) = true) ∧
    (∃ t, exec .rti plain = .next t ∧ decide (t.sp ≠ plain.sp) = true) ∧
    (∃ s, construct [] resetConfig none = .ok s) := by
  refine ⟨execGives_next (p := fun t => decide (t.a ≠ plain.a)) (by decide +kernel),
    execGives_next (p := fun t => decide (t.a ≠ 1)) (by decide +kernel),
    execGives_next (p := fun t => decide (t.x ≠ plain.x)) (by decide +kernel),
    execGives_next (p := fun t => decide (t.y ≠ plain.y)) (by decide +kernel),
    execGives_next (p := fun t => decide (t.sp ≠ plain.sp)) (by decide +kernel), ⟨_, rfl⟩⟩

/-- Each flag, changed by an instruction of its list. -/
theorem witness_WritersOfFlags :
    (execGives .sec plain (fun t => t.flags.c != plain.flags.c) && execGives (.ldaImm 0) plain (fun t => t.flags.z != plain.flags.z) &&
     execGives .dex plain (fun t => t.flags.n != plain.flags.n) && execGives (.brk 0) plain (fun t => t.flags.i != plain.flags.i) &&
     execGives .sed plain (fun t => t.flags.d != plain.flags.d) &&
     execGives .plp { plain with mem := poke [(0x0100, 0x10)] plain.mem } (fun t => t.flags.b != plain.flags.b) &&
     execGives (.adcImm 0x7F) { plain with a := 1 } (fun t => t.flags.v != plain.flags.v) &&
     execGives (.bitZp 0x10) { plain with mem := poke [(0x0010, 0x40)] plain.mem } (fun t => t.flags.v != plain.flags.v)) = true := by
  decide +kernel

theorem witness_PcAdvancesByLength :
    (∃ t, exec (.staAbsx 0x1234) { plain with pc := 0xFFFE } = .next t ∧ decide (t.pc = 0x0001) = true) ∧
    (Instr.staAbsx 0x1234).mnemonic ∉
      [Mnemonic.JMP, .JSR, .RTS, .BRK, .RTI, .BCC, .BCS, .BEQ, .BMI, .BNE, .BPL, .BVC, .BVS] :=
  ⟨execGives_next (p := fun t => decide (t.pc = 0x0001)) (by decide +kernel), by decide⟩

/-- Stores at both ends of a video window and next to it. -/
theorem witness_DirtySetByVideoStoresOnly :
    (execGives (.staAbs 0x0400) plain (fun t => t.dirty) && execGives (.staAbs 0x07FF) plain (fun t => t.dirty) &&
     execGives (.staAbs 0x03FF) plain (fun t => !t.dirty) && execGives (.staAbs 0x0800) plain (fun t => !t.dirty)) = true := by
  decide +kernel

theorem witness_HostStateUntouchedByInstructions :
    (∃ t, exec .nop plain = .next t ∧ true = true) ∧ ∃ t, step plain = .next t :=
  ⟨execGives_next (p := fun _ => true) (by decide +kernel), completes_next (by decide +kernel)⟩

/-- An instruction of each class, a fault among them. -/
theorem witness_InterruptDisableMasksNothing :
    (Instr.ldaZp 0x10).mnemonic ∉ [Mnemonic.SEI, .CLI, .BRK, .PLP, .RTI, .PHP] ∧
    (∃ t, exec (.ldaZp 0x10) plain = .next t ∧ true = true) ∧
    (Instr.jmpInd 0xC050).mnemonic ∉ [Mnemonic.SEI, .CLI, .BRK, .PLP, .RTI, .PHP] ∧
    exec (.jmpInd 0xC050) plain = .fault (.unmodelled .deviceFetch 0xC050) ∧
    Instr.plp.mnemonic ∈ [Mnemonic.SEI, .CLI, .PLP, .RTI] ∧ (Instr.brk 0).mnemonic ∈ [Mnemonic.PHP, .BRK] :=
  ⟨by decide, execGives_next (p := fun _ => true) (by decide +kernel), by decide, rfl, by decide, by decide⟩

theorem witness_DecimalFlagAffectsAdcSbcOnly :
    (Instr.cmpImm 0x13).mnemonic ∉ [Mnemonic.ADC, .SBC, .SED, .CLD, .PLP, .RTI, .PHP, .BRK] ∧
    ∃ t, exec (.cmpImm 0x13) plain = .next t ∧ true = true :=
  ⟨by decide, execGives_next (p := fun _ => true) (by decide +kernel)⟩

theorem witness_LdaLoadsAccumulator : (Instr.ldaIndx 0xFE).mnemonic = .LDA := rfl

theorem witness_LdxLdyLoadIndexRegisters : (Instr.ldxZpy 0xF0).mnemonic = .LDX ∧ (Instr.ldyImm 0).mnemonic = .LDY := ⟨rfl, rfl⟩

theorem witness_StoresWriteRegister :
    (Instr.staIndy 0x20).mnemonic = .STA ∧ (Instr.stxZp 0x80).mnemonic = .STX ∧ (Instr.styAbs 0x1000).mnemonic = .STY :=
  ⟨rfl, rfl, rfl⟩

theorem witness_AdcAddsWithCarry :
    (Instr.adcImm 1).mnemonic = .ADC ∧ plain.flags.d = false ∧ ({ plain with flags.d := true } : State).flags.d = true :=
  ⟨rfl, rfl, rfl⟩

theorem witness_SbcSubtractsWithBorrow :
    (Instr.sbcImm 1).mnemonic = .SBC ∧ plain.flags.d = false ∧ ({ plain with flags.d := true } : State).flags.d = true :=
  ⟨rfl, rfl, rfl⟩

/-- The largest valid operands. -/
theorem witness_DecimalArithmeticFollowsLaw : (0x99 : Byte).toNat / 16 ≤ 9 ∧ (0x99 : Byte).toNat % 16 ≤ 9 := by decide

/-- A decimal function under the law of R124 that is not the default: off valid operands it answers 0xEE and a carry. -/
def oddDecimal (law : Byte → Byte → Bool → Byte × Bool) (a m : Byte) (c : Bool) : Byte × Bool :=
  if bcdValid a && bcdValid m then law a m c else (0xEE, true)

theorem witness_DecimalFunctionsAreArguments :
    (∀ a m c, bcdValid a = true → bcdValid m = true → oddDecimal bcdAdcLaw a m c = bcdAdcLaw a m c) ∧
    (∀ a m c, bcdValid a = true → bcdValid m = true → oddDecimal bcdSbcLaw a m c = bcdSbcLaw a m c) ∧
    oddDecimal bcdAdcLaw 0x0A 0x01 false ≠ bcdAdcDefault 0x0A 0x01 false := by
  refine ⟨fun a m c ha hm => ?_, fun a m c ha hm => ?_, by decide⟩ <;> simp [oddDecimal, ha, hm]

/-- A supplied value is taken off valid operands only, and the default stands where none is supplied (R6, R122). -/
theorem test_decimal_function_supplied :
    let rule : BcdRule := [⟨0x0A, 0x01, false, 0xEE, true⟩, ⟨0x58, 0x46, false, 0xEE, false⟩]
    (goes (tc 0x0200 [0x69, 0x01] |> fun s => { s with a := 0x0A, flags.d := true, cfg.bcdAdc := rule })
      (fun s => { s with a := 0xEE, pc := 0x0202, flags.c := true, flags.n := true }) &&
     goes (tc 0x0200 [0x69, 0x46] |> fun s => { s with a := 0x58, flags.d := true, cfg.bcdAdc := rule })
      (fun s => { s with a := 0x04, pc := 0x0202, flags.c := true }) &&
     goes (tc 0x0200 [0x69, 0x01] |> fun s => { s with a := 0x7F, flags.d := true, cfg.bcdAdc := rule })
      (fun s => { s with a := 0x86, pc := 0x0202, flags.n := true })) = true := by decide +kernel

theorem witness_LogicCombinesAccumulator :
    (Instr.andImm 1).mnemonic = .AND ∧ (Instr.oraImm 1).mnemonic = .ORA ∧ (Instr.eorImm 1).mnemonic = .EOR := ⟨rfl, rfl, rfl⟩

theorem witness_AslLsrShift :
    Instr.aslAcc.mnemonic = .ASL ∧ (Instr.aslZp 0).mnemonic = .ASL ∧ Instr.lsrAcc.mnemonic = .LSR ∧ (Instr.lsrZp 0).mnemonic = .LSR :=
  ⟨rfl, rfl, rfl, rfl⟩

theorem witness_RolRorRotateThroughCarry :
    Instr.rolAcc.mnemonic = .ROL ∧ (Instr.rolZp 0).mnemonic = .ROL ∧ Instr.rorAcc.mnemonic = .ROR ∧ (Instr.rorZp 0).mnemonic = .ROR :=
  ⟨rfl, rfl, rfl, rfl⟩

theorem witness_ComparesSetFlagsOnly :
    (Instr.cmpImm 1).mnemonic = .CMP ∧ (Instr.cpxImm 1).mnemonic = .CPX ∧ (Instr.cpyImm 1).mnemonic = .CPY := ⟨rfl, rfl, rfl⟩

theorem witness_IncDecMemory : (Instr.incZp 1).mnemonic = .INC ∧ (Instr.decZp 1).mnemonic = .DEC := ⟨rfl, rfl⟩

theorem witness_BitTestsOperand : (Instr.bitZp 1).mnemonic = .BIT := rfl

/-- A plain pointer, a pointer at the end of its page with and without the wrap, and an intercepted byte in each place. -/
theorem witness_JmpSetsPc :
    (intercepted plain.cfg 0x02FF = false ∧ intercepted plain.cfg (pointerHigh plain.cfg 0x02FF) = false ∧
      pointerHigh plain.cfg 0x02FF = 0x0300 ∧ pointerHigh { plain.cfg with jmpIndPageWrap := true } 0x02FF = 0x0200) ∧
    intercepted plain.cfg 0xC010 = true ∧
    (intercepted plain.cfg 0xC00F = false ∧ intercepted plain.cfg (pointerHigh plain.cfg 0xC00F) = true) := by decide +kernel

theorem witness_RtsReturnsAfterJsr :
    0x01FF < plain.cfg.romBoundary.val ∧ ∃ t u : State, exec (.jsr 0x2000) plain = .next t ∧ u.sp = t.sp ∧ u.pc ≠ t.pc ∧
      u.mem.read (stackSlot plain 0) = t.mem.read (stackSlot plain 0) ∧
      u.mem.read (stackSlot plain 1) = t.mem.read (stackSlot plain 1) :=
  ⟨by decide +kernel, _, ((pushWord (plain.pc + 2) plain).setPc 0x2001), rfl, rfl, by decide +kernel, rfl, rfl⟩

theorem witness_RtiReturnsAfterBrk :
    0x01FF < plain.cfg.romBoundary.val ∧ ∃ t u : State, exec (.brk 0xEA) plain = .next t ∧ u.sp = t.sp ∧ u.flags ≠ t.flags ∧
      (∀ k, k < 3 → u.mem.read (stackSlot plain k) = t.mem.read (stackSlot plain k)) ∧ u.flags.b = t.flags.b :=
  ⟨by decide +kernel, enterTrap (plain.pc + 2) plain, (enterTrap (plain.pc + 2) plain).setFlags { plain.flags with z := true }, rfl,
    by decide +kernel, by decide +kernel, by decide +kernel, by decide +kernel⟩

/-- Both values of each flag that a branch tests, and the displacements at the ends of the range. -/
theorem witness_BranchesTestOneFlag :
    (execGives (.bcc 0x80) plain (fun t => t.pc == 0x0182) && execGives (.bcs 0x7F) plain (fun t => t.pc == 0x0202) &&
     execGives (.beq 0x7F) { plain with flags.z := true } (fun t => t.pc == 0x0281) &&
     execGives (.bvs 0xFE) { plain with flags.v := true } (fun t => t.pc == 0x0200)) = true := by decide +kernel

/-! Host interface and construction. -/

/-- A key for Enter, a snapshot, a memory dump over the end of memory (R259, R261). -/
theorem test_host_api :
    (hostAct (.injectKey 0x0D) plain).mem.read 0xC000 = 0x8D ∧ (snapshot plain).sp = 0xFF ∧
    memoryDump (tc 0xFFFF [0x11, 0x22]) 0xFFFF 2 = [0x11, 0x22] ∧
    (hostAct .reset { tc 0xFFFC [0x34, 0x12] with sp := 0x00, icount := 9 }) = { tc 0xFFFC [0x34, 0x12] with pc := 0x1234 } := by
  decide +kernel

/-- A `run_for` of no step (log 22), a completed one of one step, and one that stops at once. -/
theorem test_run_steps :
    runSteps 0 plain = (.continued, plain) ∧ (runSteps 1 plain).1 = .continued ∧ (runSteps 1 (tc 0x0200 [0x02])).1 = .halted (.undefinedOpcode 0x02 0x0200) := by
  decide +kernel

/-- The word of a row, placed where the first step after reset fetches, is what that step runs (log 11). -/
theorem test_withFetchWord :
    let s := State.reset.withFetchWord 24 0xC0508D
    fetchInstr s = .ok (.staAbs 0xC050) ∧ execGives (.staAbs 0xC050) s (fun t => t.sw.graphics) = true := by
  refine ⟨rfl, by decide +kernel⟩

end Sys2Proof.Tests
end

section
/-! PROOFS. The statements of 00_scope.md about construction (R7) and about the decimal functions as parameters (R6). -/

namespace Sys2Proof.Machine

/-! ## What construction refuses -/

/-- Construction answers an error exactly when the checks find a problem. -/
theorem construct_error_iff (image : List Byte) (cfg : Config) (bp : Option Nat) :
    (∃ e, construct image cfg bp = .error e) ↔ configProblem cfg image.length ≠ none := by
  unfold construct
  cases configProblem cfg image.length <;> simp

/-- The checks find a problem exactly when one of the six fails, whichever is reported. -/
theorem configProblem_ne_none_iff (cfg : Config) (n : Nat) :
    configProblem cfg n ≠ none ↔
      memSize < n ∨ (graphicsAddr, Switch.graphics) ∉ cfg.softSwitches ∨
        namedOnce (cfg.softSwitches.map Prod.fst) = false ∨ cfg.strobeHi.toNat < cfg.strobeLo.toNat ∨
        windowsOverlap cfg.video1 cfg.video2 = true ∨ interceptsReserved cfg = true := by
  unfold configProblem
  split_ifs <;> simp_all

theorem namedOnce_eq_true_iff (l : List Addr) : namedOnce l = true ↔ l.Nodup := by
  induction l with
  | nil => simp [namedOnce]
  | cons a rest ih => simp [namedOnce, ih]

theorem inWindow_iff (w : Window) (a : Addr) :
    inWindow w a = true ↔ w.lo.toNat ≤ a.toNat ∧ a.toNat ≤ w.hi.toNat := by
  simp [inWindow]

/-- Two windows that meet have the higher of their low ends in common. -/
theorem windowsOverlap_iff (v w : Window) :
    windowsOverlap v w = true ↔ ∃ a, inWindow v a = true ∧ inWindow w a = true := by
  simp only [windowsOverlap, decide_eq_true_eq, inWindow_iff]
  constructor
  · intro h
    rcases le_total v.lo.toNat w.lo.toNat with hle | hle
    · exact ⟨w.lo, by omega⟩
    · exact ⟨v.lo, by omega⟩
  · rintro ⟨a, hv, hw⟩
    omega

theorem switchAt_isSome_iff (cfg : Config) (a : Addr) :
    (switchAt cfg a).isSome = true ↔ ∃ e ∈ cfg.softSwitches, e.1 = a := by
  simp [switchAt]

theorem inStrobe_iff (cfg : Config) (a : Addr) :
    inStrobe cfg a = true ↔ cfg.strobeLo.toNat ≤ a.toNat ∧ a.toNat ≤ cfg.strobeHi.toNat := by
  simp [inStrobe]

theorem reservedAddr_iff (a : Addr) : reservedAddr a = true ↔ a.toNat ≤ 0x01FF ∨ 0xFFFC ≤ a.toNat := by
  simp [reservedAddr]

/-- A strobe window that is not inverted meets the reserved addresses exactly when one of its ends lies in them: its low end in the
low ones, or its high end in the high ones. -/
theorem strobe_meets_reserved_iff (cfg : Config) (h : cfg.strobeLo.toNat ≤ cfg.strobeHi.toNat) :
    (∃ a, inStrobe cfg a = true ∧ reservedAddr a = true) ↔
      cfg.strobeLo.toNat ≤ 0x01FF ∨ 0xFFFC ≤ cfg.strobeHi.toNat := by
  simp only [inStrobe_iff, reservedAddr_iff]
  constructor
  · rintro ⟨a, ha, hr⟩
    omega
  · rintro (hlo | hhi)
    · exact ⟨cfg.strobeLo, by omega⟩
    · exact ⟨cfg.strobeHi, by omega⟩

/-- The check on interception looks at every address that is intercepted (20_memory.md R62). -/
theorem interceptsReserved_iff (cfg : Config) (h : cfg.strobeLo.toNat ≤ cfg.strobeHi.toNat) :
    interceptsReserved cfg = true ↔ ∃ a, intercepted cfg a = true ∧ reservedAddr a = true := by
  have hswitches : (cfg.softSwitches.any fun e => reservedAddr e.1) = true ↔
      ∃ a, (switchAt cfg a).isSome = true ∧ reservedAddr a = true := by
    simp only [List.any_eq_true, switchAt_isSome_iff]
    constructor
    · rintro ⟨e, he, hr⟩
      exact ⟨e.1, ⟨e, he, rfl⟩, hr⟩
    · rintro ⟨_, ⟨e, he, rfl⟩, hr⟩
      exact ⟨e, he, hr⟩
  simp only [interceptsReserved, intercepted, Bool.or_eq_true, decide_eq_true_eq, or_and_right, exists_or,
    strobe_meets_reserved_iff cfg h, hswitches, or_assoc]

/-! ## The decimal functions -/

theorem bcdValid_iff (b : Byte) : bcdValid b = true ↔ nibHi b ≤ 9 ∧ nibLo b ≤ 9 := by
  simp [bcdValid]

/-- The default addition follows the law of R124 (R122). -/
theorem bcdAdcDefault_eq_law {a m : Byte} (c : Bool) (ha : bcdValid a = true) (hm : bcdValid m = true) :
    bcdAdcDefault a m c = bcdAdcLaw a m c := by
  obtain ⟨ha1, ha0⟩ := (bcdValid_iff a).mp ha
  obtain ⟨hm1, hm0⟩ := (bcdValid_iff m).mp hm
  have hc : bit c ≤ 1 := Bool.toNat_le c
  simp only [bcdAdcDefault, bcdAdcLaw, bcdValue, bcdEnc]
  split_ifs with hlo hhi hhi
  · exact Prod.ext (congrArg (BitVec.ofNat 8) (by omega)) (decide_eq_true (by omega)).symm
  · exact Prod.ext (congrArg (BitVec.ofNat 8) (by omega)) (decide_eq_false (by omega)).symm
  · exact Prod.ext (congrArg (BitVec.ofNat 8) (by omega)) (decide_eq_true (by omega)).symm
  · exact Prod.ext (congrArg (BitVec.ofNat 8) (by omega)) (decide_eq_false (by omega)).symm

/-- The default subtraction follows the law of R124 (R123). -/
theorem bcdSbcDefault_eq_law {a m : Byte} (c : Bool) (ha : bcdValid a = true) (hm : bcdValid m = true) :
    bcdSbcDefault a m c = bcdSbcLaw a m c := by
  obtain ⟨ha1, ha0⟩ := (bcdValid_iff a).mp ha
  obtain ⟨hm1, hm0⟩ := (bcdValid_iff m).mp hm
  have hc : bit c ≤ 1 := Bool.toNat_le c
  simp only [bcdSbcDefault, bcdSbcLaw, bcdValue, bcdEnc, ← BitVec.ofInt_natCast]
  split_ifs with hlo hhi hhi
  · exact Prod.ext (congrArg (BitVec.ofInt 8) (by omega)) (decide_eq_false (by omega)).symm
  · exact Prod.ext (congrArg (BitVec.ofInt 8) (by omega)) (decide_eq_true (by omega)).symm
  · exact Prod.ext (congrArg (BitVec.ofInt 8) (by omega)) (decide_eq_false (by omega)).symm
  · exact Prod.ext (congrArg (BitVec.ofInt 8) (by omega)) (decide_eq_true (by omega)).symm

/-- A function that agrees with the default on valid operands is what its own table configures. -/
theorem bcdConfigured_bcdTable {dflt f : Byte → Byte → Bool → Byte × Bool}
    (h : ∀ a m c, bcdValid a = true → bcdValid m = true → dflt a m c = f a m c) :
    bcdConfigured dflt (bcdTable f) = f := by
  funext a m c
  cases hv : bcdValid a && bcdValid m with
  | true =>
    obtain ⟨ha, hm⟩ := Bool.and_eq_true_iff.mp hv
    exact (bcdConfigured_valid hv).trans (h a m c ha hm)
  | false => rw [bcdConfigured_invalid hv, bcdLookup_bcdTable, Option.getD_some]

/-- With no table, the default stands on all operands. -/
theorem bcdConfigured_nil (dflt : Byte → Byte → Bool → Byte × Bool) : bcdConfigured dflt [] = dflt := by
  funext a m c
  exact ite_self _

/-! ## The statements -/

/-- Settles O13: check by check, the one on interception for a strobe window that is not inverted, since an inverted one is refused
already. -/
theorem constructionRefusesExactlyBadConfigurations : Obligations.ConstructionRefusesExactlyBadConfigurations := by
  intro image cfg bp
  rw [construct_error_iff, configProblem_ne_none_iff, windowsOverlap_iff, ← Bool.not_eq_true, namedOnce_eq_true_iff]
  by_cases hinv : cfg.strobeHi.toNat < cfg.strobeLo.toNat
  · simp only [hinv, true_or, or_true]
  · rw [interceptsReserved_iff cfg (Nat.le_of_not_lt hinv)]
    simp only [reservedAddr_iff]
    rfl

/-- Settles O42: on valid operands the law leaves no choice and the defaults follow it; on all others the table answers. -/
theorem decimalFunctionsAreArguments : Obligations.DecimalFunctionsAreArguments := by
  refine ⟨fun f hf => ?_, fun f hf => ?_, bcdConfigured_nil _, bcdConfigured_nil _⟩
  · exact bcdConfigured_bcdTable fun a m c ha hm => (bcdAdcDefault_eq_law c ha hm).trans (hf a m c ha hm).symm
  · exact bcdConfigured_bcdTable fun a m c ha hm => (bcdSbcDefault_eq_law c ha hm).trans (hf a m c ha hm).symm

end Sys2Proof.Machine
end

section
/-! PROOFS. What a completed instruction can do, said once for the statements of 10_state.md and every other frame: each mnemonic
stands in one constructor of `Effect`, which leaves open the values that a frame does not need. -/

namespace Sys2Proof.Machine

/-- What an instruction that completes can do to the state: which fields it writes, where it
stores, and where `PC` goes. -/
inductive Effect (i : Instr) (s : State) : State → Prop
  | readA (src : Source) (v : Byte) (hm : i.mnemonic ∈ [Mnemonic.LDA, .AND, .ORA, .EOR]) (ho : i.operand = src.operand) :
      Effect i s (advance src.operand.mode.length
        (((afterOperand src s).setA v).setFlags (setZN v (afterOperand src s).flags)))
  | readX (src : Source) (v : Byte) (hm : i.mnemonic = .LDX) (ho : i.operand = src.operand) :
      Effect i s (advance src.operand.mode.length
        (((afterOperand src s).setX v).setFlags (setZN v (afterOperand src s).flags)))
  | readY (src : Source) (v : Byte) (hm : i.mnemonic = .LDY) (ho : i.operand = src.operand) :
      Effect i s (advance src.operand.mode.length
        (((afterOperand src s).setY v).setFlags (setZN v (afterOperand src s).flags)))
  | addSubtract (src : Source) (v : Byte) (c ov : Bool) (hm : i.mnemonic ∈ [Mnemonic.ADC, .SBC])
      (ho : i.operand = src.operand) (hv : s.flags.d = true → ov = s.flags.v) :
      Effect i s (advance src.operand.mode.length
        (((afterOperand src s).setA v).setFlags (setZN v { (afterOperand src s).flags with c := c, v := ov })))
  | compare (src : Source) (c z n : Bool) (hm : i.mnemonic ∈ [Mnemonic.CMP, .CPX, .CPY]) (ho : i.operand = src.operand) :
      Effect i s (advance src.operand.mode.length
        ((afterOperand src s).setFlags { (afterOperand src s).flags with c := c, z := z, n := n }))
  | bitTest (src : Source) (z v n : Bool) (hm : i.mnemonic = .BIT) (ho : i.operand = src.operand) :
      Effect i s (advance src.operand.mode.length
        ((afterOperand src s).setFlags { (afterOperand src s).flags with z := z, v := v, n := n }))
  | write (m : MemOperand) (v : Byte) (hm : i.mnemonic ∈ [Mnemonic.STA, .STX, .STY]) (ho : i.operand = .memory m) :
      Effect i s (advance m.mode.length (store (effectiveAddr m s) v (access (effectiveAddr m s) s)))
  | shiftA (v : Byte) (c : Bool) (hm : i.mnemonic ∈ [Mnemonic.ASL, .LSR, .ROL, .ROR]) (ho : i.operand = .accumulator) :
      Effect i s (advance 1 ((s.setA v).setFlags (setZN v { s.flags with c := c })))
  | shiftMemory (m : MemOperand) (v : Byte) (c : Bool) (hm : i.mnemonic ∈ [Mnemonic.ASL, .LSR, .ROL, .ROR])
      (ho : i.operand = .memory m) :
      Effect i s (advance m.mode.length
        ((store (effectiveAddr m s) v (afterLoad (effectiveAddr m s) s)).setFlags (setZN v { s.flags with c := c })))
  | countMemory (m : MemOperand) (v : Byte) (hm : i.mnemonic ∈ [Mnemonic.INC, .DEC]) (ho : i.operand = .memory m) :
      Effect i s (advance m.mode.length
        ((store (effectiveAddr m s) v (afterLoad (effectiveAddr m s) s)).setFlags (setZN v s.flags)))
  | impliedA (v : Byte) (hm : i.mnemonic ∈ [Mnemonic.TXA, .TYA]) (ho : i.operand = .implied) :
      Effect i s (advance 1 ((s.setA v).setFlags (setZN v s.flags)))
  | impliedX (v : Byte) (hm : i.mnemonic ∈ [Mnemonic.INX, .DEX, .TAX, .TSX]) (ho : i.operand = .implied) :
      Effect i s (advance 1 ((s.setX v).setFlags (setZN v s.flags)))
  | impliedY (v : Byte) (hm : i.mnemonic ∈ [Mnemonic.INY, .DEY, .TAY]) (ho : i.operand = .implied) :
      Effect i s (advance 1 ((s.setY v).setFlags (setZN v s.flags)))
  | impliedSp (v : Byte) (hm : i.mnemonic = .TXS) (ho : i.operand = .implied) : Effect i s (advance 1 (s.setSp v))
  | pushByte (v : Byte) (hm : i.mnemonic ∈ [Mnemonic.PHA, .PHP]) (ho : i.operand = .implied) :
      Effect i s (advance 1 (push v s))
  | pullA (v : Byte) (hm : i.mnemonic = .PLA) (ho : i.operand = .implied) :
      Effect i s (advance 1 (((afterPull s).setA v).setFlags (setZN v s.flags)))
  | pullFlags (f : Flags) (hm : i.mnemonic = .PLP) (ho : i.operand = .implied) :
      Effect i s (advance 1 ((afterPull s).setFlags f))
  | setCarry (c : Bool) (hm : i.mnemonic ∈ [Mnemonic.SEC, .CLC]) (ho : i.operand = .implied) :
      Effect i s (advance 1 (s.setFlags { s.flags with c := c }))
  | setInterrupt (c : Bool) (hm : i.mnemonic ∈ [Mnemonic.SEI, .CLI]) (ho : i.operand = .implied) :
      Effect i s (advance 1 (s.setFlags { s.flags with i := c }))
  | setDecimal (c : Bool) (hm : i.mnemonic ∈ [Mnemonic.SED, .CLD]) (ho : i.operand = .implied) :
      Effect i s (advance 1 (s.setFlags { s.flags with d := c }))
  | clearOverflow (hm : i.mnemonic = .CLV) (ho : i.operand = .implied) :
      Effect i s (advance 1 (s.setFlags { s.flags with v := false }))
  | nothing (hm : i.mnemonic = .NOP) (ho : i.operand = .implied) : Effect i s (advance 1 s)
  | goTo (w : Addr)
      (hm : i.mnemonic ∈ [Mnemonic.JMP, .BCC, .BCS, .BEQ, .BMI, .BNE, .BPL, .BVC, .BVS]) : Effect i s (s.setPc w)
  | call (ret w : Addr) (hm : i.mnemonic = .JSR) : Effect i s ((pushWord ret s).setPc w)
  | callReturn (w : Addr) (hm : i.mnemonic = .RTS) : Effect i s ((afterPullWord s).setPc w)
  | trap (ret : Addr) (hm : i.mnemonic = .BRK) : Effect i s (enterTrap ret s)
  | trapReturn (hm : i.mnemonic = .RTI) : Effect i s (returnFromTrap s)

variable {i : Instr} {s t : State}

/-! ## Every completed instruction has one of these effects -/

theorem readOperand_next {src : Source} {f : Byte → State → State} (h : readOperand src s f = .next t) :
    t = advance src.operand.mode.length (f (operandByte src s) (afterOperand src s)) := by
  rw [readOperand_eq] at h
  injection h with h
  exact h.symm

theorem writeOperand_next {m : MemOperand} {v : Byte} (h : writeOperand m v s = .next t) :
    t = advance m.mode.length (store (effectiveAddr m s) v (access (effectiveAddr m s) s)) := by
  rw [writeOperand_eq] at h
  injection h with h
  exact h.symm

/-- ADC and SBC write C, Z and N, and V in binary mode only (R120, R121). -/
theorem aluAdc_writes (rule : BcdRule) (a m : Byte) (f : Flags) : ∃ v c ov,
    aluAdc rule a m f = (v, setZN v { f with c := c, v := ov }) ∧ (f.d = true → ov = f.v) := by
  unfold aluAdc
  split_ifs with hd
  · exact ⟨_, _, f.v, rfl, fun _ => rfl⟩
  · exact ⟨_, _, _, rfl, fun h => absurd h hd⟩

theorem aluSbc_writes (rule : BcdRule) (a m : Byte) (f : Flags) : ∃ v c ov,
    aluSbc rule a m f = (v, setZN v { f with c := c, v := ov }) ∧ (f.d = true → ov = f.v) := by
  unfold aluSbc
  split_ifs with hd
  · exact ⟨_, _, f.v, rfl, fun _ => rfl⟩
  · exact ⟨_, _, _, rfl, fun h => absurd h hd⟩

/-- A reading instruction that writes the result and the flags of an addition or a subtraction. -/
theorem effect_of_addSubtract {src : Source} {alu : Byte → State → Byte × Flags} (hm : i.mnemonic ∈ [Mnemonic.ADC, .SBC])
    (ho : i.operand = src.operand)
    (halu : ∀ m t, ∃ v c ov,
      alu m t = (v, setZN v { t.flags with c := c, v := ov }) ∧ (t.flags.d = true → ov = t.flags.v))
    (h : readOperand src s (fun m t => (t.setA (alu m t).1).setFlags (alu m t).2) = .next t) : Effect i s t := by
  obtain rfl := readOperand_next h
  obtain ⟨v, c, ov, hr, hv⟩ := halu (operandByte src s) (afterOperand src s)
  rw [hr]
  exact .addSubtract src v c ov hm ho (by simpa using hv)

/-- A shift or rotate, whose result and flags have the same shape for each of the four. -/
theorem effect_of_shift {tgt : Target} {alu : Byte → Flags → Byte × Flags}
    (hm : i.mnemonic ∈ [Mnemonic.ASL, .LSR, .ROL, .ROR]) (ho : i.operand = tgt.operand)
    (halu : ∀ m f, ∃ v c, alu m f = (v, setZN v { f with c := c })) (h : modifyTarget tgt s alu = .next t) :
    Effect i s t := by
  cases tgt with
  | acc =>
    rw [modifyTarget_acc] at h
    injection h with h
    obtain ⟨v, c, hr⟩ := halu s.a s.flags
    rw [← h, hr]
    exact .shiftA v c hm ho
  | mem m =>
    rw [modifyTarget_mem] at h
    injection h with h
    obtain ⟨v, c, hr⟩ := halu (loaded (effectiveAddr m s) s) s.flags
    rw [← h, hr]
    exact .shiftMemory m v c hm ho

/-- INC or DEC of a byte of memory. -/
theorem effect_of_countMemory {m : MemOperand} {alu : Byte → Flags → Byte × Flags}
    (hm : i.mnemonic ∈ [Mnemonic.INC, .DEC]) (ho : i.operand = .memory m)
    (halu : ∀ b f, ∃ v, alu b f = (v, setZN v f)) (h : modifyTarget (.mem m) s alu = .next t) : Effect i s t := by
  rw [modifyTarget_mem] at h
  injection h with h
  obtain ⟨v, hr⟩ := halu (loaded (effectiveAddr m s) s) s.flags
  rw [← h, hr]
  exact .countMemory m v hm ho

/-- A branch goes to its target or to the next instruction, and changes `PC` only. -/
theorem effect_of_branch {cond : Bool} {d : Byte}
    (hm : i.mnemonic ∈ [Mnemonic.JMP, .BCC, .BCS, .BEQ, .BMI, .BNE, .BPL, .BVC, .BVS])
    (h : branch cond d s = .next t) : Effect i s t := by
  unfold branch at h
  injection h with h
  cases cond
  · exact h ▸ .goTo (s.pc + 2) hm
  · exact h ▸ .goTo (s.pc + 2 + sext d) hm

/-- Every instruction that completes has the effect of its mnemonic. -/
theorem exec_effect (h : exec i s = .next t) : Effect i s t := by
  cases hm : i.mnemonic with
  | LDA =>
    obtain ⟨src, ho, he⟩ := exec_LDA hm
    obtain rfl := readOperand_next ((he s).symm.trans h)
    exact .readA src _ (by simp [hm]) ho
  | LDX =>
    obtain ⟨src, ho, he⟩ := exec_LDX hm
    obtain rfl := readOperand_next ((he s).symm.trans h)
    exact .readX src _ hm ho
  | LDY =>
    obtain ⟨src, ho, he⟩ := exec_LDY hm
    obtain rfl := readOperand_next ((he s).symm.trans h)
    exact .readY src _ hm ho
  | STA =>
    obtain ⟨m, ho, he⟩ := exec_STA hm
    obtain rfl := writeOperand_next ((he s).symm.trans h)
    exact .write m _ (by simp [hm]) ho
  | STX =>
    obtain ⟨m, ho, he⟩ := exec_STX hm
    obtain rfl := writeOperand_next ((he s).symm.trans h)
    exact .write m _ (by simp [hm]) ho
  | STY =>
    obtain ⟨m, ho, he⟩ := exec_STY hm
    obtain rfl := writeOperand_next ((he s).symm.trans h)
    exact .write m _ (by simp [hm]) ho
  | ADC =>
    obtain ⟨src, ho, he⟩ := exec_ADC hm
    exact effect_of_addSubtract (by simp [hm]) ho (fun m t => aluAdc_writes t.cfg.bcdAdc t.a m t.flags) ((he s).symm.trans h)
  | SBC =>
    obtain ⟨src, ho, he⟩ := exec_SBC hm
    exact effect_of_addSubtract (by simp [hm]) ho (fun m t => aluSbc_writes t.cfg.bcdSbc t.a m t.flags) ((he s).symm.trans h)
  | AND =>
    obtain ⟨src, ho, he⟩ := exec_AND hm
    obtain rfl := readOperand_next ((he s).symm.trans h)
    exact .readA src _ (by simp [hm]) ho
  | ORA =>
    obtain ⟨src, ho, he⟩ := exec_ORA hm
    obtain rfl := readOperand_next ((he s).symm.trans h)
    exact .readA src _ (by simp [hm]) ho
  | EOR =>
    obtain ⟨src, ho, he⟩ := exec_EOR hm
    obtain rfl := readOperand_next ((he s).symm.trans h)
    exact .readA src _ (by simp [hm]) ho
  | ASL =>
    obtain ⟨tgt, ho, he⟩ := exec_ASL hm
    exact effect_of_shift (by simp [hm]) ho (fun _ _ => ⟨_, _, rfl⟩) ((he s).symm.trans h)
  | LSR =>
    obtain ⟨tgt, ho, he⟩ := exec_LSR hm
    exact effect_of_shift (by simp [hm]) ho (fun _ _ => ⟨_, _, rfl⟩) ((he s).symm.trans h)
  | ROL =>
    obtain ⟨tgt, ho, he⟩ := exec_ROL hm
    exact effect_of_shift (by simp [hm]) ho (fun _ _ => ⟨_, _, rfl⟩) ((he s).symm.trans h)
  | ROR =>
    obtain ⟨tgt, ho, he⟩ := exec_ROR hm
    exact effect_of_shift (by simp [hm]) ho (fun _ _ => ⟨_, _, rfl⟩) ((he s).symm.trans h)
  | CMP =>
    obtain ⟨src, ho, he⟩ := exec_CMP hm
    obtain rfl := readOperand_next ((he s).symm.trans h)
    exact .compare src _ _ _ (by simp [hm]) ho
  | CPX =>
    obtain ⟨src, ho, he⟩ := exec_CPX hm
    obtain rfl := readOperand_next ((he s).symm.trans h)
    exact .compare src _ _ _ (by simp [hm]) ho
  | CPY =>
    obtain ⟨src, ho, he⟩ := exec_CPY hm
    obtain rfl := readOperand_next ((he s).symm.trans h)
    exact .compare src _ _ _ (by simp [hm]) ho
  | BIT =>
    obtain ⟨src, ho, he⟩ := exec_BIT hm
    obtain rfl := readOperand_next ((he s).symm.trans h)
    exact .bitTest src _ _ _ hm ho
  | INC =>
    obtain ⟨m, ho, he⟩ := exec_INC hm
    exact effect_of_countMemory (by simp [hm]) ho (fun _ _ => ⟨_, rfl⟩) ((he s).symm.trans h)
  | DEC =>
    obtain ⟨m, ho, he⟩ := exec_DEC hm
    exact effect_of_countMemory (by simp [hm]) ho (fun _ _ => ⟨_, rfl⟩) ((he s).symm.trans h)
  | INX => cases only_INX hm; cases h; exact .impliedX _ (by simp [hm]) rfl
  | DEX => cases only_DEX hm; cases h; exact .impliedX _ (by simp [hm]) rfl
  | TAX => cases only_TAX hm; cases h; exact .impliedX _ (by simp [hm]) rfl
  | TSX => cases only_TSX hm; cases h; exact .impliedX _ (by simp [hm]) rfl
  | INY => cases only_INY hm; cases h; exact .impliedY _ (by simp [hm]) rfl
  | DEY => cases only_DEY hm; cases h; exact .impliedY _ (by simp [hm]) rfl
  | TAY => cases only_TAY hm; cases h; exact .impliedY _ (by simp [hm]) rfl
  | TXA => cases only_TXA hm; cases h; exact .impliedA _ (by simp [hm]) rfl
  | TYA => cases only_TYA hm; cases h; exact .impliedA _ (by simp [hm]) rfl
  | TXS => cases only_TXS hm; cases h; exact .impliedSp _ hm rfl
  | PHA => cases only_PHA hm; cases h; exact .pushByte _ (by simp [hm]) rfl
  | PHP => cases only_PHP hm; cases h; exact .pushByte _ (by simp [hm]) rfl
  | PLA => cases only_PLA hm; cases h; exact .pullA _ hm rfl
  | PLP => cases only_PLP hm; cases h; exact .pullFlags _ hm rfl
  | SEC => cases only_SEC hm; cases h; exact .setCarry _ (by simp [hm]) rfl
  | CLC => cases only_CLC hm; cases h; exact .setCarry _ (by simp [hm]) rfl
  | SEI => cases only_SEI hm; cases h; exact .setInterrupt _ (by simp [hm]) rfl
  | CLI => cases only_CLI hm; cases h; exact .setInterrupt _ (by simp [hm]) rfl
  | SED => cases only_SED hm; cases h; exact .setDecimal _ (by simp [hm]) rfl
  | CLD => cases only_CLD hm; cases h; exact .setDecimal _ (by simp [hm]) rfl
  | CLV => cases only_CLV hm; cases h; exact .clearOverflow hm rfl
  | NOP => cases only_NOP hm; cases h; exact .nothing hm rfl
  | JMP =>
    obtain ⟨w, rfl⟩ | ⟨p, rfl⟩ := only_JMP hm
    · cases h
      exact .goTo w (by simp [hm])
    · obtain ⟨-, -, hj⟩ | ⟨-, hj⟩ := jumpIndirect_cases p s
      · cases hj.symm.trans h
        exact .goTo _ (by simp [hm])
      · cases hj.symm.trans h
  | JSR => obtain ⟨w, rfl⟩ := only_JSR hm; cases h; exact .call _ w hm
  | RTS => cases only_RTS hm; cases h; exact .callReturn _ hm
  | BRK => obtain ⟨pad, rfl⟩ := only_BRK hm; cases h; exact .trap _ hm
  | RTI => cases only_RTI hm; cases h; exact .trapReturn hm
  | BCC => obtain ⟨d, rfl⟩ := only_BCC hm; exact effect_of_branch (by simp [hm]) h
  | BCS => obtain ⟨d, rfl⟩ := only_BCS hm; exact effect_of_branch (by simp [hm]) h
  | BEQ => obtain ⟨d, rfl⟩ := only_BEQ hm; exact effect_of_branch (by simp [hm]) h
  | BMI => obtain ⟨d, rfl⟩ := only_BMI hm; exact effect_of_branch (by simp [hm]) h
  | BNE => obtain ⟨d, rfl⟩ := only_BNE hm; exact effect_of_branch (by simp [hm]) h
  | BPL => obtain ⟨d, rfl⟩ := only_BPL hm; exact effect_of_branch (by simp [hm]) h
  | BVC => obtain ⟨d, rfl⟩ := only_BVC hm; exact effect_of_branch (by simp [hm]) h
  | BVS => obtain ⟨d, rfl⟩ := only_BVS hm; exact effect_of_branch (by simp [hm]) h

end Sys2Proof.Machine
end

section
/-! PROOFS. The encodings of a mnemonic, read off the opcode map (30_encoding.md R85): what `EncodedAs` asks of all instructions is
checked row by row. -/

namespace Sys2Proof.Machine

/-- The mnemonic of a row of the opcode map, whatever its operand bytes are. -/
def rowMnemonic : Shape → Mnemonic
  | .none i => i.mnemonic
  | .byte mk => (mk 0).mnemonic
  | .word mk => (mk 0).mnemonic

/-- The format of a row of the opcode map, whatever its operand bytes are. -/
def rowMode : Shape → Mode
  | .none i => i.operand.mode
  | .byte mk => (mk 0).operand.mode
  | .word mk => (mk 0).operand.mode

/-- The opcode map as plain data: opcode byte, mnemonic and format of each row. -/
def opRows : List (Byte × Mnemonic × Mode) := opTable.map fun r => (r.1, rowMnemonic r.2, rowMode r.2)

/-- Every instruction has its row, which does not depend on its operand bytes. -/
theorem row_mem_opRows (i : Instr) : (opcode i, i.mnemonic, i.operand.mode) ∈ opRows := by
  cases i <;> dsimp only [opcode, Instr.mnemonic, Instr.operand, Operand.mode, MemOperand.mode] <;> decide +kernel

/-- The encodings of a mnemonic are checked row by row. -/
theorem encodedAs_of_opRows {mn : Mnemonic} {rows : List (Byte × Mode)}
    (h : ∀ r ∈ opRows, r.2.1 = mn ↔ (r.1, r.2.2) ∈ rows) : EncodedAs mn rows :=
  fun i => h _ (row_mem_opRows i)

end Sys2Proof.Machine
end

section
/-! PROOFS. The statements of 10_state.md: what the instructions change of the state, and the state after reset. -/

namespace Sys2Proof.Machine

variable {i : Instr} {s t : State}

/-! ## What an effect writes: the registers (R20 to R23) -/

/-- A mnemonic of a shorter list of writers is one of a longer list. -/
theorem mnemonic_mem_of_subset {mn : Mnemonic} {l l' : List Mnemonic} (hm : mn ∈ l) (hl : l ⊆ l' := by decide) :
    mn ∈ l' :=
  hl hm

theorem Effect.writes_a (h : Effect i s t) (hne : t.a ≠ s.a) :
    i.mnemonic ∈ [Mnemonic.LDA, .ADC, .SBC, .AND, .ORA, .EOR, .TXA, .TYA, .PLA] ∨
      (i.mnemonic ∈ [Mnemonic.ASL, .LSR, .ROL, .ROR] ∧ i.operand = .accumulator) := by
  cases h with
  | readA src v hm | addSubtract src v c ov hm | impliedA v hm => exact .inl (mnemonic_mem_of_subset hm)
  | pullA v hm => simp [hm]
  | shiftA v c hm ho => exact .inr ⟨hm, ho⟩
  | _ => simp [returnFromTrap_eq] at hne

theorem Effect.writes_x (h : Effect i s t) (hne : t.x ≠ s.x) :
    i.mnemonic ∈ [Mnemonic.LDX, .INX, .DEX, .TAX, .TSX] := by
  cases h with
  | readX src v hm => simp [hm]
  | impliedX v hm => exact mnemonic_mem_of_subset hm
  | _ => simp [returnFromTrap_eq] at hne

theorem Effect.writes_y (h : Effect i s t) (hne : t.y ≠ s.y) : i.mnemonic ∈ [Mnemonic.LDY, .INY, .DEY, .TAY] := by
  cases h with
  | readY src v hm => simp [hm]
  | impliedY v hm => exact mnemonic_mem_of_subset hm
  | _ => simp [returnFromTrap_eq] at hne

theorem Effect.writes_sp (h : Effect i s t) (hne : t.sp ≠ s.sp) :
    i.mnemonic ∈ [Mnemonic.TXS, .PHA, .PHP, .PLA, .PLP, .JSR, .RTS, .BRK, .RTI] := by
  cases h with
  | pushByte v hm => exact mnemonic_mem_of_subset hm
  | impliedSp v hm | pullA v hm | pullFlags f hm | call ret w hm | callReturn w hm | trap ret hm | trapReturn hm => simp [hm]
  | _ => simp at hne

/-! ## What an effect writes: the flags (R27) -/

@[simp] theorem setZN_c (r : Byte) (f : Flags) : (setZN r f).c = f.c := rfl
@[simp] theorem setZN_i (r : Byte) (f : Flags) : (setZN r f).i = f.i := rfl
@[simp] theorem setZN_d (r : Byte) (f : Flags) : (setZN r f).d = f.d := rfl
@[simp] theorem setZN_b (r : Byte) (f : Flags) : (setZN r f).b = f.b := rfl
@[simp] theorem setZN_v (r : Byte) (f : Flags) : (setZN r f).v = f.v := rfl
@[simp] theorem unpackRti_b (p : Byte) (f : Flags) : (unpackRti p f).b = f.b := rfl

theorem Effect.writes_c (h : Effect i s t) (hne : t.flags.c ≠ s.flags.c) : i.mnemonic ∈
    [Mnemonic.ADC, .SBC, .ASL, .LSR, .ROL, .ROR, .CMP, .CPX, .CPY, .SEC, .CLC, .PLP, .RTI] := by
  cases h with
  | addSubtract src v c ov hm | compare src c z n hm | shiftA v c hm | shiftMemory m v c hm | setCarry c hm =>
    exact mnemonic_mem_of_subset hm
  | pullFlags f hm | trapReturn hm => simp [hm]
  | _ => simp at hne

theorem Effect.writes_zn (h : Effect i s t) (hne : t.flags.z ≠ s.flags.z ∨ t.flags.n ≠ s.flags.n) : i.mnemonic ∈
    [Mnemonic.LDA, .LDX, .LDY, .ADC, .SBC, .AND, .ORA, .EOR, .ASL, .LSR, .ROL, .ROR, .CMP, .CPX] ++
    [Mnemonic.CPY, .INC, .DEC, .INX, .INY, .DEX, .DEY, .BIT, .TAX, .TAY, .TXA, .TYA, .TSX, .PLA, .PLP, .RTI] := by
  cases h with
  | readA src v hm | addSubtract src v c ov hm | compare src c z n hm | shiftA v c hm | shiftMemory m v c hm
  | countMemory m v hm | impliedA v hm | impliedX v hm | impliedY v hm => exact mnemonic_mem_of_subset hm
  | readX src v hm | readY src v hm | bitTest src z v n hm | pullA v hm | pullFlags f hm | trapReturn hm => simp [hm]
  | _ => simp at hne

theorem Effect.writes_i (h : Effect i s t) (hne : t.flags.i ≠ s.flags.i) :
    i.mnemonic ∈ [Mnemonic.SEI, .CLI, .BRK, .PLP, .RTI] := by
  cases h with
  | setInterrupt c hm => exact mnemonic_mem_of_subset hm
  | trap ret hm | pullFlags f hm | trapReturn hm => simp [hm]
  | _ => simp at hne

theorem Effect.writes_d (h : Effect i s t) (hne : t.flags.d ≠ s.flags.d) :
    i.mnemonic ∈ [Mnemonic.SED, .CLD, .PLP, .RTI] := by
  cases h with
  | setDecimal c hm => exact mnemonic_mem_of_subset hm
  | pullFlags f hm | trapReturn hm => simp [hm]
  | _ => simp at hne

theorem Effect.writes_b (h : Effect i s t) (hne : t.flags.b ≠ s.flags.b) : i.mnemonic = .PLP := by
  cases h with
  | pullFlags f hm => exact hm
  | _ => simp [returnFromTrap_eq] at hne

theorem Effect.writes_v (h : Effect i s t) (hne : t.flags.v ≠ s.flags.v) :
    i.mnemonic ∈ [Mnemonic.BIT, .CLV, .PLP, .RTI] ∨ (i.mnemonic ∈ [Mnemonic.ADC, .SBC] ∧ s.flags.d = false) := by
  cases h with
  | addSubtract src v c ov hm ho hv =>
    simp only [advance_flags, State.setFlags_flags, setZN_v] at hne
    exact .inr ⟨hm, Bool.eq_false_iff.mpr fun hd => hne (hv hd)⟩
  | bitTest src z v n hm | clearOverflow hm | pullFlags f hm | trapReturn hm => simp [hm]
  | _ => simp at hne

/-! ## Where `PC` goes (R25) -/

/-- An effect that is no control transfer moves `PC` past the instruction. -/
theorem Effect.pc_eq_nextPc (h : Effect i s t)
    (hc : i.mnemonic ∉ [Mnemonic.JMP, .JSR, .RTS, .BRK, .RTI, .BCC, .BCS, .BEQ, .BMI, .BNE, .BPL, .BVC, .BVS]) :
    t.pc = nextPc i s := by
  cases h with
  | goTo w hm => exact absurd (mnemonic_mem_of_subset hm) hc
  | call ret w hm | callReturn w hm | trap ret hm | trapReturn hm => simp [hm] at hc
  | shiftA v c hm ho => simp [nextPc, ho, Operand.mode, Mode.length]
  | shiftMemory m v c hm ho | countMemory m v hm ho | write m v hm ho => simp [nextPc, ho, Operand.mode]
  | readA src v hm ho | readX src v hm ho | readY src v hm ho | addSubtract src v c ov hm ho | compare src c z n hm ho
  | bitTest src z v n hm ho => simp [nextPc, ho]
  | impliedA v hm ho | impliedX v hm ho | impliedY v hm ho | impliedSp v hm ho | pushByte v hm ho | pullA v hm ho
  | pullFlags f hm ho | setCarry c hm ho | setInterrupt c hm ho | setDecimal c hm ho | clearOverflow hm ho | nothing hm ho =>
    simp [nextPc, ho, Operand.mode, Mode.length]

theorem nextPc_toNat (i : Instr) (s : State) : (nextPc i s).toNat = (s.pc.toNat + i.operand.mode.length) % 65536 := by
  simp [nextPc]

/-! ## Where an effect stores (R31, R61) -/

theorem stackSlot_eq (s : State) (k : Nat) : stackSlot s k = stackAddr (s.sp - BitVec.ofNat 8 k) := rfl

theorem stackSlot_zero (s : State) : stackSlot s 0 = stackAddr s.sp := by simp [stackSlot_eq]

theorem pushWord_dirty (w : Addr) (s : State) : (pushWord w s).dirty =
    (s.dirty || (inVideo s.cfg (stackSlot s 0) || inVideo s.cfg (stackSlot s 1))) := by
  simp [pushWord, stackSlot_eq, Bool.or_assoc]

theorem enterTrap_dirty (ret : Addr) (s : State) : (enterTrap ret s).dirty =
    (s.dirty || (inVideo s.cfg (stackSlot s 0) || (inVideo s.cfg (stackSlot s 1) || inVideo s.cfg (stackSlot s 2)))) := by
  simp [enterTrap, pushWord_dirty, stackSlot_eq, Bool.or_assoc, sub_sub]

/-- A store and a read-modify-write store to the effective address. -/
theorem storedAddrs_memory {m : MemOperand}
    (hm : i.mnemonic ∈ [Mnemonic.STA, .STX, .STY, .INC, .DEC, .ASL, .LSR, .ROL, .ROR]) (ho : i.operand = .memory m) :
    storedAddrs i s = [effectiveAddr m s] := by
  simp only [List.mem_cons, List.not_mem_nil, or_false] at hm
  rcases hm with hm | hm | hm | hm | hm | hm | hm | hm | hm <;> simp only [storedAddrs, hm, ho]

theorem storedAddrs_push (hm : i.mnemonic ∈ [Mnemonic.PHA, .PHP]) : storedAddrs i s = [stackSlot s 0] := by
  simp only [List.mem_cons, List.not_mem_nil, or_false] at hm
  rcases hm with hm | hm <;> simp only [storedAddrs, hm]

/-- A shift of the accumulator stores nothing. -/
theorem storedAddrs_accumulator (hm : i.mnemonic ∈ [Mnemonic.ASL, .LSR, .ROL, .ROR]) (ho : i.operand = .accumulator) :
    storedAddrs i s = [] := by
  simp only [List.mem_cons, List.not_mem_nil, or_false] at hm
  rcases hm with hm | hm | hm | hm <;> simp only [storedAddrs, hm, ho]

/-- The mnemonics that no arm of `storedAddrs` names store nothing. -/
theorem storedAddrs_none {l : List Mnemonic} (hm : i.mnemonic ∈ l)
    (hl : ∀ mn ∈ l,
      mn ∉ [Mnemonic.STA, .STX, .STY, .INC, .DEC, .ASL, .LSR, .ROL, .ROR, .PHA, .PHP, .JSR, .BRK] := by decide) :
    storedAddrs i s = [] := by
  have hn := hl _ hm
  unfold storedAddrs
  split <;> simp_all

/-- An effect never clears `dirty`, and sets it exactly when one of its stores is to a video window. -/
theorem Effect.dirty_eq (h : Effect i s t) : t.dirty = (s.dirty || (storedAddrs i s).any (inVideo s.cfg)) := by
  cases h with
  | write m v hm ho | shiftMemory m v c hm ho | countMemory m v hm ho =>
    simp [storedAddrs_memory (mnemonic_mem_of_subset hm) ho]
  | pushByte v hm => simp [storedAddrs_push hm, stackSlot_zero]
  | call ret w hm => simp [storedAddrs, hm, pushWord_dirty]
  | trap ret hm => simp [storedAddrs, hm, enterTrap_dirty]
  | shiftA v c hm ho => simp [storedAddrs_accumulator hm ho]
  | readA src v hm | addSubtract src v c ov hm | compare src c z n hm | impliedA v hm | impliedX v hm | impliedY v hm
  | setCarry c hm | setInterrupt c hm | setDecimal c hm | goTo w hm => simp [storedAddrs_none hm]
  | readX src v hm | readY src v hm | bitTest src z v n hm | impliedSp v hm | pullA v hm | pullFlags f hm | clearOverflow hm
  | nothing hm | callReturn w hm | trapReturn hm => simp [storedAddrs, hm, returnFromTrap_eq]

/-! ## What no effect touches (R33, R34, R37) -/

/-- No effect touches what is the host's, and draws are only used up. -/
theorem Effect.host_state (h : Effect i s t) :
    t.icount = s.icount ∧ t.breakpoint = s.breakpoint ∧ t.cfg = s.cfg ∧ s.draws ≤ t.draws := by
  cases h with
  | readA src | readX src | readY src | addSubtract src | compare src | bitTest src =>
    simp [afterOperand_draws_le]
  | shiftMemory m | countMemory m => simp [afterLoad_draws_le]
  | _ => simp [returnFromTrap_eq]

/-! ## The status byte (R28) -/

theorem toNat_append_eq_add {m n : Nat} (x : BitVec m) (y : BitVec n) : (x ++ y).toNat = x.toNat * 2 ^ n + y.toNat := by
  rw [BitVec.toNat_append, ← Nat.shiftLeft_add_eq_or_of_lt y.isLt, Nat.shiftLeft_eq]

theorem packStatus_toNat (f : Flags) : (packStatus f).toNat = 128 * f.n.toNat + 64 * f.v.toNat + 32 + 16 * f.b.toNat +
    8 * f.d.toNat + 4 * f.i.toNat + 2 * f.z.toNat + f.c.toNat := by
  simp only [packStatus, toNat_append_eq_add, BitVec.toNat_ofBool, BitVec.toNat_ofNat]
  omega

/-- The pushed status byte is that of the flags with B set: bit 5 is 1 already. -/
theorem pushedStatus_eq (f : Flags) : pushedStatus f = packStatus { f with b := true } := by
  obtain ⟨c, z, i, d, b, v, n⟩ := f
  revert c z i d b v n
  decide

/-! ## The state after construction (R270), and the stack byte that `SP` addresses (R23) -/

theorem construct_ok_iff {image : List Byte} {cfg : Config} {bp : Option Nat} :
    construct image cfg bp = .ok s ↔ configProblem cfg image.length = none ∧ s = built image cfg bp := by
  unfold construct
  cases configProblem cfg image.length <;> simp [eq_comm]

theorem stackAddr_toNat (sp : Byte) : (stackAddr sp).toNat = 0x0100 + sp.toNat := by
  have hbase : stackBase.toNat = 0x0100 := rfl
  simp only [stackAddr, zext, BitVec.toNat_add, BitVec.toNat_setWidth, hbase]
  omega

/-! ## The statements -/

/-- Settles O29: register by register, from what each effect writes. -/
theorem writersOfRegisters : Obligations.WritersOfRegisters := by
  refine ⟨fun i s t h => ?_, fun image cfg bp s h => ?_, stackAddr_toNat⟩
  · have he := exec_effect h
    exact ⟨he.writes_a, he.writes_x, he.writes_y, he.writes_sp⟩
  · obtain ⟨-, rfl⟩ := construct_ok_iff.mp h
    exact ⟨rfl, rfl, rfl, rfl⟩

/-- Settles O30: flag by flag, from what each effect writes. -/
theorem writersOfFlags : Obligations.WritersOfFlags := by
  intro i s t h
  have he := exec_effect h
  exact ⟨he.writes_c, he.writes_zn, he.writes_i, he.writes_d, he.writes_b, he.writes_v⟩

/-- Settles O31: every effect but the control transfers ends in `advance` by the length of the format. -/
theorem pcAdvancesByLength : Obligations.PcAdvancesByLength := by
  intro i s t h hc
  rw [(exec_effect h).pc_eq_nextPc hc, nextPc_toNat]

/-- Settles O32: `dirty` is written by the stores of an effect alone. -/
theorem dirtySetByVideoStoresOnly : Obligations.DirtySetByVideoStoresOnly :=
  fun _ _ _ h => (exec_effect h).dirty_eq

/-- Settles O33: no effect touches the fields of the host, and a completed step adds its count to them. -/
theorem hostStateUntouchedByInstructions : Obligations.HostStateUntouchedByInstructions := by
  refine ⟨fun i s t h => (exec_effect h).host_state, fun s t h => ?_⟩
  obtain ⟨i, u, -, hu, rfl⟩ := (step_next_iff s t).mp h
  obtain ⟨hicount, hbreakpoint, hcfg, hdraws⟩ := (exec_effect hu).host_state
  exact ⟨congrArg (· + 1) hicount, hbreakpoint, hcfg, hdraws⟩

/-- Settles O52: the status byte in numbers, and each instruction by its definition. -/
theorem phpPlpMoveStatus : Obligations.PhpPlpMoveStatus := by
  refine ⟨packStatus_toNat, fun f => ?_, ⟨?_, fun s => ?_⟩, ⟨?_, fun s => ?_⟩⟩
  · simp only [pushedStatus_eq, packStatus_toNat, Bool.toNat_true]
  · exact encodedAs_of_opRows (by decide +kernel)
  · rw [stackSlot_zero]
    rfl
  · exact encodedAs_of_opRows (by decide +kernel)
  · rfl

/-- Settles O14: construction accepts the configuration of `State.reset`, and builds that state. -/
theorem resetStateIsConstructed : Obligations.ResetStateIsConstructed :=
  ⟨construct_ok_iff.mpr ⟨by decide, rfl⟩, rfl, rfl, memory_read_nil⟩

end Sys2Proof.Machine
end

section
/-! PROOFS. What a completed instruction does to memory and the soft switches, said once for every frame of memory: one access of its
effective address if it has one (20_memory.md R57), then its stores in order (R61, R63). -/

namespace Sys2Proof.Machine

variable {i : Instr} {s t : State} {a : Addr}

/-! ## The access of an instruction (R57) -/

/-- The state after the one `Access` of an instruction with a memory operand; every other instruction has none. -/
def accessed (i : Instr) (s : State) : State :=
  match i.operand with
  | .memory m => access (effectiveAddr m s) s
  | _ => s

theorem accessed_memory {m : MemOperand} (ho : i.operand = .memory m) : accessed i s = access (effectiveAddr m s) s := by
  simp only [accessed, ho]

theorem accessed_other (ho : ∀ m, i.operand ≠ .memory m) : accessed i s = s := by
  unfold accessed
  split
  · rename_i m hm; exact absurd hm (ho m)
  · rfl

@[simp] theorem accessed_cfg : (accessed i s).cfg = s.cfg := by
  unfold accessed
  split <;> rfl

theorem accessed_wf (h : s.mem.wf = true) : (accessed i s).mem.wf = true := by
  unfold accessed
  split
  · exact memAfter_wf _ _ _ h
  · exact h

/-- The access of an instruction clears bit 7 of `KBD_DATA` from the strobe window, and changes no other byte (R59). -/
theorem accessed_read (i : Instr) (s : State) (a : Addr) : (accessed i s).mem.read a = s.mem.read a ∨
    (a = kbdData ∧ (accessed i s).mem.read a = s.mem.read a &&& 0x7F ∧
      ∃ m, i.operand = .memory m ∧ inStrobe s.cfg (effectiveAddr m s) = true) := by
  by_cases ho : ∃ m, i.operand = .memory m
  · obtain ⟨m, ho⟩ := ho
    rw [accessed_memory ho, access_mem, memAfter_read]
    split_ifs with hk
    · obtain ⟨hstrobe, rfl⟩ := hk
      exact .inr ⟨rfl, rfl, m, ho, hstrobe⟩
    · exact .inl rfl
  · rw [accessed_other (not_exists.mp ho)]
    exact .inl rfl

/-- Reading the source of an instruction is its access, but for the count of draws. -/
theorem afterOperand_sw {src : Source} (ho : i.operand = src.operand) : (afterOperand src s).sw = (accessed i s).sw := by
  cases src with
  | imm v => simp [afterOperand, accessed_other, ho, Source.operand]
  | mem m => rw [accessed_memory ho]; rfl

theorem afterOperand_mem {src : Source} (ho : i.operand = src.operand) : (afterOperand src s).mem = (accessed i s).mem := by
  cases src with
  | imm v => simp [afterOperand, accessed_other, ho, Source.operand]
  | mem m => rw [accessed_memory ho]; rfl

/-- The operand of a control transfer is a target, a pointer, a displacement or nothing; none goes through `Access`. -/
theorem control_operand_ne_memory
    (hm : i.mnemonic ∈ [Mnemonic.JMP, .JSR, .RTS, .BRK, .RTI, .BCC, .BCS, .BEQ, .BMI, .BNE, .BPL, .BVC, .BVS]) :
    ∀ m, i.operand ≠ .memory m := by
  cases i with
  | jmpAbs | jmpInd | jsr | rts | brk | rti | bcc | bcs | beq | bmi | bne | bpl | bvc | bvs => nofun
  | _ => simp [Instr.mnemonic] at hm

theorem accessed_control
    (hm : i.mnemonic ∈ [Mnemonic.JMP, .JSR, .RTS, .BRK, .RTI, .BCC, .BCS, .BEQ, .BMI, .BNE, .BPL, .BVC, .BVS]) :
    accessed i s = s :=
  accessed_other (control_operand_ne_memory hm)

theorem accessed_implied (ho : i.operand = .implied) : accessed i s = s := accessed_other (by simp [ho])

/-- The soft switches after an effect are those after its access. -/
theorem Effect.sw_eq (h : Effect i s t) : t.sw = (accessed i s).sw := by
  cases h with
  | readA src v hm ho | readX src v hm ho | readY src v hm ho | addSubtract src v c ov hm ho | compare src c z n hm ho
  | bitTest src z v n hm ho => simp [afterOperand_sw ho]
  | write m v hm ho | shiftMemory m v c hm ho | countMemory m v hm ho => simp [accessed_memory ho]
  | shiftA v c hm ho => simp [accessed_other, ho]
  | impliedA v hm ho | impliedX v hm ho | impliedY v hm ho | impliedSp v hm ho | pushByte v hm ho | pullA v hm ho
  | pullFlags f hm ho | setCarry c hm ho | setInterrupt c hm ho | setDecimal c hm ho | clearOverflow hm ho | nothing hm ho =>
    simp [accessed_implied ho]
  | goTo w hm => simp [accessed_control (mnemonic_mem_of_subset hm)]
  | call ret w hm | callReturn w hm | trap ret hm | trapReturn hm =>
    simp [accessed_control (i := i) (by simp [hm]), returnFromTrap_eq]

/-! ## The stores of an instruction, in order (R61, R63) -/

/-- The state after a list of stores. -/
def storeAll : List (Addr × Byte) → State → State
  | [], s => s
  | (a, v) :: stores, s => storeAll stores (store a v s)

theorem storeAll_wf (stores : List (Addr × Byte)) (s : State) (h : s.mem.wf = true) :
    (storeAll stores s).mem.wf = true := by
  induction stores generalizing s with
  | nil => exact h
  | cons st stores ih => exact ih _ (store_wf _ _ _ h)

/-- Stores leave alone every byte that none of them is to, and every byte at or above the ROM boundary (R56). -/
theorem storeAll_read (stores : List (Addr × Byte)) (s : State)
    (h : a ∉ stores.map Prod.fst ∨ s.cfg.romBoundary.val ≤ a.toNat) : (storeAll stores s).mem.read a = s.mem.read a := by
  induction stores generalizing s with
  | nil => rfl
  | cons st stores ih =>
    obtain ⟨b, v⟩ := st
    simp only [List.map_cons, List.mem_cons, not_or] at h
    have hfirst : (store b v s).mem.read a = s.mem.read a := by
      rcases h with ⟨hne, -⟩ | hrom
      · rw [store_read, if_neg (fun hb => hne hb.1)]
      · exact store_read_rom s b a v hrom
    exact (ih (store b v s) (h.imp_left And.right)).trans hfirst

theorem pushWord_mem (w : Addr) (s : State) :
    (pushWord w s).mem = (storeAll [(stackSlot s 0, hi w), (stackSlot s 1, lo w)] s).mem := by
  rw [stackSlot_zero, stackSlot_eq]
  rfl

theorem enterTrap_stores (ret : Addr) (s : State) : (enterTrap ret s).mem =
    (storeAll [(stackSlot s 0, hi ret), (stackSlot s 1, lo ret), (stackSlot s 2, pushedStatus s.flags)] s).mem := by
  have hthird : stackSlot s 2 = stackAddr (s.sp - 1 - 1) := by
    rw [stackSlot_eq, sub_sub]
    rfl
  rw [stackSlot_zero, stackSlot_eq, hthird]
  rfl

/-- Memory after an effect is that after its access with its stores done in order. -/
theorem Effect.mem_eq (h : Effect i s t) : ∃ stores : List (Addr × Byte),
    stores.map Prod.fst = storedAddrs i s ∧ t.mem = (storeAll stores (accessed i s)).mem := by
  cases h with
  | write m v hm ho | shiftMemory m v c hm ho | countMemory m v hm ho =>
    exact ⟨[(effectiveAddr m s, v)], (storedAddrs_memory (mnemonic_mem_of_subset hm) ho).symm,
      by rw [accessed_memory ho]; rfl⟩
  | pushByte v hm ho =>
    exact ⟨[(stackSlot s 0, v)], (storedAddrs_push hm).symm, by simp [accessed_implied ho, storeAll, stackSlot_zero]⟩
  | call ret w hm =>
    exact ⟨[(stackSlot s 0, hi ret), (stackSlot s 1, lo ret)], by simp [storedAddrs, hm],
      (pushWord_mem ret s).trans (by rw [accessed_control (by simp [hm])])⟩
  | trap ret hm =>
    exact ⟨[(stackSlot s 0, hi ret), (stackSlot s 1, lo ret), (stackSlot s 2, pushedStatus s.flags)],
      by simp [storedAddrs, hm],
      (enterTrap_stores ret s).trans (by rw [accessed_control (by simp [hm])])⟩
  | readA src v hm ho | addSubtract src v c ov hm ho | compare src c z n hm ho =>
    exact ⟨[], (storedAddrs_none hm).symm, afterOperand_mem ho⟩
  | readX src v hm ho | readY src v hm ho | bitTest src z v n hm ho =>
    exact ⟨[], by simp [storedAddrs, hm], afterOperand_mem ho⟩
  | shiftA v c hm ho => exact ⟨[], (storedAddrs_accumulator hm ho).symm, by simp [accessed_other, ho, storeAll]⟩
  | impliedA v hm ho | impliedX v hm ho | impliedY v hm ho | setCarry c hm ho | setInterrupt c hm ho | setDecimal c hm ho =>
    exact ⟨[], (storedAddrs_none hm).symm, by simp [accessed_implied ho, storeAll]⟩
  | impliedSp v hm ho | pullA v hm ho | pullFlags f hm ho | clearOverflow hm ho | nothing hm ho =>
    exact ⟨[], by simp [storedAddrs, hm], by simp [accessed_implied ho, storeAll]⟩
  | goTo w hm =>
    exact ⟨[], (storedAddrs_none hm).symm,
      by simp [accessed_control (mnemonic_mem_of_subset hm), storeAll]⟩
  | callReturn w hm | trapReturn hm =>
    exact ⟨[], by simp [storedAddrs, hm],
      by simp [accessed_control (i := i) (by simp [hm]), storeAll, returnFromTrap_eq]⟩

/-- A byte that an effect does not store to, or that lies at or above the ROM boundary, reads as after the access. -/
theorem Effect.read_eq_accessed (h : Effect i s t) (ha : a ∉ storedAddrs i s ∨ s.cfg.romBoundary.val ≤ a.toNat) :
    t.mem.read a = (accessed i s).mem.read a := by
  obtain ⟨stores, haddrs, hmem⟩ := h.mem_eq
  rw [hmem, storeAll_read stores _ (by rwa [haddrs, accessed_cfg])]

/-- An effect keeps the canonical form of memory. -/
theorem Effect.mem_wf (h : Effect i s t) (hw : s.mem.wf = true) : t.mem.wf = true := by
  obtain ⟨stores, -, hmem⟩ := h.mem_eq
  exact hmem ▸ storeAll_wf stores _ (accessed_wf hw)

end Sys2Proof.Machine
end

section
/-! PROOFS. The statements of 20_memory.md: memory and its invariant, the I/O dispatcher, the stack, and what a fetch sees. -/

namespace Sys2Proof.Machine

variable {s t : State} {cfg : Config}

/-! ## Memories that read alike (R50) -/

/-- A memory in canonical form has no entry past its last address. -/
theorem memory_get_above {m : Memory} {low a : Nat} (hm : Memory.wfFrom low m = true) (ha : memSize ≤ a) :
    Memory.get m a = Memory.unlisted := by
  induction m generalizing low with
  | nil => rfl
  | cons c m ih =>
    obtain ⟨k, v⟩ := c
    simp only [Memory.wfFrom, Bool.and_eq_true, decide_eq_true_eq] at hm
    obtain ⟨⟨⟨-, hk⟩, -⟩, hm⟩ := hm
    rw [Memory.get, if_neg (by omega), ih hm]

theorem memory_eq_of_read {m m' : Memory} (hm : m.wf = true) (hm' : m'.wf = true) (h : ∀ a, m.read a = m'.read a) :
    m = m' := by
  refine memory_ext m m' 0 hm hm' fun a => ?_
  by_cases ha : memSize ≤ a
  · rw [memory_get_above hm ha, memory_get_above hm' ha]
  · have hlt : a < 65536 := Nat.lt_of_not_le ha
    simpa [Memory.read, Nat.mod_eq_of_lt hlt] using h (BitVec.ofNat 16 a)

/-! ## The soft switches (R57, R58) -/

theorem configOk_softSwitches_nodup (h : configOk cfg = true) : (cfg.softSwitches.map Prod.fst).Nodup := by
  have hnone : ¬ configProblem cfg 0 ≠ none := by simpa [configOk] using h
  rw [configProblem_ne_none_iff] at hnone
  simp only [not_or, Bool.not_eq_false] at hnone
  obtain ⟨-, -, honce, -⟩ := hnone
  exact (namedOnce_eq_true_iff _).mp honce

/-- With no address named twice, the switch found at an address is the one that the map has there. -/
theorem switchAt_eq_some_iff (h : (cfg.softSwitches.map Prod.fst).Nodup) (a : Addr) (w : Switch) :
    switchAt cfg a = some w ↔ (a, w) ∈ cfg.softSwitches := by
  have sound : ∀ w, switchAt cfg a = some w → (a, w) ∈ cfg.softSwitches := by
    intro w hw
    obtain ⟨e, hfind, rfl⟩ := Option.map_eq_some_iff.mp hw
    have hkey : e.1 = a := by simpa using List.find?_some hfind
    exact hkey ▸ List.mem_of_find?_eq_some hfind
  refine ⟨sound w, fun hmem => ?_⟩
  obtain ⟨w', hw'⟩ := Option.isSome_iff_exists.mp ((switchAt_isSome_iff cfg a).mpr ⟨(a, w), hmem, rfl⟩)
  have hsame : (a, w') = (a, w) := List.inj_on_of_nodup_map h (sound w' hw') hmem rfl
  rw [hw', (Prod.mk.inj hsame).2]

/-- An access inverts the switch found at its address, each switch by the same rule. -/
theorem switchesAfter_eq (cfg : Config) (a : Addr) (sw : Switches) :
    let hit := fun w : Switch => decide (switchAt cfg a = some w)
    switchesAfter cfg a sw =
      ⟨sw.graphics ^^ hit .graphics, sw.split ^^ hit .split, sw.page2 ^^ hit .page2, sw.hires ^^ hit .hires⟩ := by
  unfold switchesAfter
  cases switchAt cfg a with
  | none => simp
  | some w => cases w <;> simp [toggle]

/-! ## The one racing read (R60) -/

theorem strobeRace_iff (ea : Addr) (s : State) : strobeRace ea s = true ↔
    ea = 0xC000 ∧ s.cfg.strobeLo.toNat ≤ 0xC000 ∧ 0xC000 ≤ s.cfg.strobeHi.toNat := by
  rw [strobeRace, Bool.and_eq_true, beq_iff_eq, inStrobe_iff]
  rfl

/-- In the race the access clears bit 7 of the byte read. -/
theorem access_read_race {ea : Addr} (h : strobeRace ea s = true) :
    (access ea s).mem.read ea = s.mem.read ea &&& 0x7F := by
  obtain ⟨hea, hstrobe⟩ := Bool.and_eq_true_iff.mp h
  obtain rfl := beq_iff_eq.mp hea
  rw [access_mem, memAfter_read, if_pos ⟨hstrobe, rfl⟩]

theorem loaded_race {ea : Addr} (h : strobeRace ea s = true) :
    loaded ea s = s.mem.read ea ∨ loaded ea s = s.mem.read ea &&& 0x7F := by
  unfold loaded
  split_ifs
  · exact .inl rfl
  · exact .inr (access_read_race h)

/-! ## The stack (R63) -/

theorem stackAddr_eq_ofNat (sp : Byte) : stackAddr sp = BitVec.ofNat 16 (0x0100 + sp.toNat) := by
  rw [← stackAddr_toNat, BitVec.ofNat_toNat, BitVec.setWidth_eq]

/-- A pull finds `SP` as it was before the push, and the pushed byte there unless the store was discarded. -/
theorem pulled_push (v : Byte) (s : State) (h : (stackAddr s.sp).toNat < s.cfg.romBoundary.val) :
    pulled (push v s) = v := by
  rw [pulled, push_sp, sub_add_cancel, push_read, if_pos ⟨rfl, h⟩]

/-! ## What a fetch reads (R64, R88) -/

theorem implementedLength_le {op : Byte} {len : Nat} (h : implementedLength cfg op = some len) : len ≤ 3 := by
  unfold implementedLength opLength at h
  split_ifs at h
  obtain ⟨shape, -, rfl⟩ := Option.map_eq_some_iff.mp h
  cases shape <;> simp [Shape.length]

/-- An instruction of at most three bytes is fetched from the three bytes at `PC`. -/
theorem fetchBytes_congr {m m' : Memory} {pc : Addr} {len : Nat} (hlen : len ≤ 3)
    (h : ∀ k, k < 3 → m.read (pc + BitVec.ofNat 16 k) = m'.read (pc + BitVec.ofNat 16 k)) :
    fetchBytes m pc len = fetchBytes m' pc len := by
  refine List.map_congr_left fun a ha => ?_
  simp only [operandAddrs, List.mem_cons, List.mem_map, List.mem_range] at ha
  rcases ha with rfl | ⟨k, hk, rfl⟩
  · simpa using h 0 (by omega)
  · exact h (k + 1) (by omega)

/-- A fetch depends on the configuration, `PC`, and the three bytes from `PC` on. -/
theorem fetchInstr_congr (hcfg : s.cfg = t.cfg) (hpc : s.pc = t.pc)
    (h : ∀ k, k < 3 → s.mem.read (s.pc + BitVec.ofNat 16 k) = t.mem.read (s.pc + BitVec.ofNat 16 k)) :
    fetchInstr s = fetchInstr t := by
  have hop : s.mem.read t.pc = t.mem.read t.pc := by simpa [hpc] using h 0 (by omega)
  unfold fetchInstr
  simp only [hcfg, hpc, hop]
  cases hlen : implementedLength t.cfg (t.mem.read t.pc) with
  | none => rfl
  | some len => simp only [fetchBytes_congr (implementedLength_le hlen) (hpc ▸ h)]

/-! ## The statements -/

/-- Settles O10: an effect is an access and stores, each of which keeps the canonical form, and the configuration is never written. -/
theorem stepKeepsInvariant : Obligations.StepKeepsInvariant := by
  rintro s t ⟨hmem, hcfg⟩ h
  obtain ⟨i, u, -, hu, rfl⟩ := (step_next_iff s t).mp h
  have he := exec_effect hu
  obtain ⟨-, -, hsame, -⟩ := he.host_state
  exact ⟨he.mem_wf hmem, (congrArg configOk hsame).trans hcfg⟩

/-- Settles O19: a legal configuration names no address twice, so the switch found is the one mapped. -/
theorem accessTogglesAndClears : Obligations.AccessTogglesAndClears := by
  intro ea s h
  refine ⟨rfl, ?_, fun a => ?_⟩
  · simp only [access_sw, switchesAfter_eq, switchAt_eq_some_iff (configOk_softSwitches_nodup h)]
  · rw [access_mem, memAfter_read]
    exact if_congr (by rw [inStrobe_iff, and_comm]; rfl) rfl rfl

/-- Settles O20: switches and bytes are those after the access, which only a memory operand has. -/
theorem memoryModesAccessOnce : Obligations.MemoryModesAccessOnce := by
  intro i s t h
  have he := exec_effect h
  refine ⟨fun m ho => ?_, fun ho => ?_⟩
  · rw [← accessed_memory ho]
    exact ⟨he.sw_eq, fun a ha => he.read_eq_accessed (.inl ha)⟩
  · have hs : accessed i s = s := accessed_other ho
    exact ⟨he.sw_eq.trans (by rw [hs]), fun a ha => (he.read_eq_accessed (.inl ha)).trans (by rw [hs])⟩

/-- Settles O21: by whether the read races with the strobe clear. -/
theorem operandReadIsBackingByte : Obligations.OperandReadIsBackingByte := by
  intro ea s
  refine ⟨fun hrace => ?_, fun hrace => ?_, rfl⟩
  · exact loaded_plain s ea (by rwa [← Bool.not_eq_true, strobeRace_iff])
  · have h := (strobeRace_iff ea s).mpr hrace
    obtain ⟨rfl, -⟩ := hrace
    exact ⟨loaded_race h, access_read_race h⟩

/-- Settles O22: field by field of the store. -/
theorem storeRespectsRomBoundary : Obligations.StoreRespectsRomBoundary := by
  intro a v s
  refine ⟨rfl, ?_, fun b => store_read s a b v⟩
  rw [store_dirty, inVideo, Bool.or_eq_true, Bool.or_eq_true, inWindow_iff, inWindow_iff]

/-- Settles O23: `SP` modulo 256 addresses the stack page, and a pull after a push comes back to it. -/
theorem stackPrimitives : Obligations.StackPrimitives := by
  intro v s
  have hdown : s.sp - 1 = BitVec.ofNat 8 (s.sp.toNat + 255) := by bv_omega
  have hup : s.sp + 1 = BitVec.ofNat 8 (s.sp.toNat + 1) := by bv_omega
  rw [← stackAddr_eq_ofNat, ← hdown, ← hup]
  refine ⟨rfl, ?_, rfl, pulled_push v s, sub_add_cancel _ _⟩
  rw [pulled, stackAddr_eq_ofNat, hup, BitVec.toNat_ofNat]

/-- Settles O25: from the laws of memory; a memory in canonical form has no entry that a 16-bit address does not reach. -/
theorem memoryReadsBackWrites : Obligations.MemoryReadsBackWrites :=
  ⟨memory_read_write, memory_wf_write, fun _ _ => memory_eq_of_read⟩

/-- Settles O26: an instruction is at most three bytes long. -/
theorem fetchSeesMemoryAsItStands : Obligations.FetchSeesMemoryAsItStands :=
  fun _ _ => fetchInstr_congr

/-- Settles O27: a store above the boundary is discarded, so only the access can change the byte. -/
theorem romNeverWritten : Obligations.RomNeverWritten := by
  intro s t a h hrom
  obtain ⟨i, u, hi, hu, rfl⟩ := (step_next_iff s t).mp h
  have hread : u.mem.read a = (accessed i s).mem.read a := (exec_effect hu).read_eq_accessed (.inr hrom)
  rcases accessed_read i s a with hsame | ⟨hkbd, hclear, m, ho, hstrobe⟩
  · exact .inl (hread.trans hsame)
  · exact .inr ⟨hkbd, hread.trans hclear, i, m, hi, ho, hstrobe⟩

/-- Settles O28: a byte not stored to reads as after the access, which changes only `KBD_DATA` from the strobe window. -/
theorem storedBytesFrame : Obligations.StoredBytesFrame := by
  intro i s t a h ha hkbd
  rw [(exec_effect h).read_eq_accessed (.inl ha)]
  rcases accessed_read i s a with hsame | ⟨ha, -, m, ho, hstrobe⟩
  · exact hsame
  · rcases hkbd with hne | hout
    · exact absurd ha hne
    · simp [hout m ho] at hstrobe

end Sys2Proof.Machine
end

section
/-! PROOFS. The decoder and the encoder of 30_encoding.md as inverses of each other, and the length of an instruction. -/

namespace Sys2Proof.Laws.RoundTrip

/-- The round trip of every instruction, by that of its constructor. -/
theorem decode_encode : ∀ i : Instr, Statement i
  | .ldaImm v => ldaImm v | .ldaZp o => ldaZp o | .ldaZpx o => ldaZpx o | .ldaAbs w => ldaAbs w
  | .ldaAbsx w => ldaAbsx w | .ldaAbsy w => ldaAbsy w | .ldaIndx o => ldaIndx o | .ldaIndy o => ldaIndy o
  | .ldxImm v => ldxImm v | .ldxZp o => ldxZp o | .ldxZpy o => ldxZpy o
  | .ldxAbs w => ldxAbs w | .ldxAbsy w => ldxAbsy w
  | .ldyImm v => ldyImm v | .ldyZp o => ldyZp o | .ldyZpx o => ldyZpx o
  | .ldyAbs w => ldyAbs w | .ldyAbsx w => ldyAbsx w
  | .staZp o => staZp o | .staZpx o => staZpx o | .staAbs w => staAbs w | .staAbsx w => staAbsx w
  | .staAbsy w => staAbsy w | .staIndx o => staIndx o | .staIndy o => staIndy o
  | .stxZp o => stxZp o | .stxZpy o => stxZpy o | .stxAbs w => stxAbs w
  | .styZp o => styZp o | .styZpx o => styZpx o | .styAbs w => styAbs w
  | .adcImm v => adcImm v | .adcZp o => adcZp o | .adcZpx o => adcZpx o | .adcAbs w => adcAbs w
  | .adcAbsx w => adcAbsx w | .adcAbsy w => adcAbsy w | .adcIndx o => adcIndx o | .adcIndy o => adcIndy o
  | .sbcImm v => sbcImm v | .sbcZp o => sbcZp o | .sbcZpx o => sbcZpx o | .sbcAbs w => sbcAbs w
  | .sbcAbsx w => sbcAbsx w | .sbcAbsy w => sbcAbsy w | .sbcIndx o => sbcIndx o | .sbcIndy o => sbcIndy o
  | .andImm v => andImm v | .andZp o => andZp o | .andZpx o => andZpx o | .andAbs w => andAbs w
  | .andAbsx w => andAbsx w | .andAbsy w => andAbsy w | .andIndx o => andIndx o | .andIndy o => andIndy o
  | .oraImm v => oraImm v | .oraZp o => oraZp o | .oraZpx o => oraZpx o | .oraAbs w => oraAbs w
  | .oraAbsx w => oraAbsx w | .oraAbsy w => oraAbsy w | .oraIndx o => oraIndx o | .oraIndy o => oraIndy o
  | .eorImm v => eorImm v | .eorZp o => eorZp o | .eorZpx o => eorZpx o | .eorAbs w => eorAbs w
  | .eorAbsx w => eorAbsx w | .eorAbsy w => eorAbsy w | .eorIndx o => eorIndx o | .eorIndy o => eorIndy o
  | .aslAcc => aslAcc | .aslZp o => aslZp o | .aslZpx o => aslZpx o
  | .aslAbs w => aslAbs w | .aslAbsx w => aslAbsx w
  | .lsrAcc => lsrAcc | .lsrZp o => lsrZp o | .lsrZpx o => lsrZpx o
  | .lsrAbs w => lsrAbs w | .lsrAbsx w => lsrAbsx w
  | .rolAcc => rolAcc | .rolZp o => rolZp o | .rolZpx o => rolZpx o
  | .rolAbs w => rolAbs w | .rolAbsx w => rolAbsx w
  | .rorAcc => rorAcc | .rorZp o => rorZp o | .rorZpx o => rorZpx o
  | .rorAbs w => rorAbs w | .rorAbsx w => rorAbsx w
  | .cmpImm v => cmpImm v | .cmpZp o => cmpZp o | .cmpZpx o => cmpZpx o | .cmpAbs w => cmpAbs w
  | .cmpAbsx w => cmpAbsx w | .cmpAbsy w => cmpAbsy w | .cmpIndx o => cmpIndx o | .cmpIndy o => cmpIndy o
  | .cpxImm v => cpxImm v | .cpxZp o => cpxZp o | .cpxAbs w => cpxAbs w
  | .cpyImm v => cpyImm v | .cpyZp o => cpyZp o | .cpyAbs w => cpyAbs w
  | .incZp o => incZp o | .incZpx o => incZpx o | .incAbs w => incAbs w | .incAbsx w => incAbsx w
  | .decZp o => decZp o | .decZpx o => decZpx o | .decAbs w => decAbs w | .decAbsx w => decAbsx w
  | .inx => inx | .iny => iny | .dex => dex | .dey => dey
  | .bitZp o => bitZp o | .bitAbs w => bitAbs w
  | .tax => tax | .tay => tay | .txa => txa | .tya => tya | .tsx => tsx | .txs => txs | .pha => pha
  | .pla => pla | .php => php | .plp => plp
  | .jmpAbs w => jmpAbs w | .jmpInd w => jmpInd w
  | .jsr w => jsr w | .rts => rts | .brk pad => brk pad | .rti => rti | .bcc d => bcc d | .bcs d => bcs d
  | .beq d => beq d | .bmi d => bmi d | .bne d => bne d | .bpl d => bpl d | .bvc d => bvc d | .bvs d => bvs d
  | .sec => sec | .clc => clc | .sed => sed | .cld => cld | .sei => sei | .cli => cli | .clv => clv
  | .nop => nop

end Sys2Proof.Laws.RoundTrip

namespace Sys2Proof.Machine

theorem lo_pair (h l : Byte) : lo (pair h l) = l :=
  BitVec.extractLsb'_append_eq_right

theorem hi_pair (h l : Byte) : hi (pair h l) = h :=
  BitVec.extractLsb'_append_eq_left

/-- What the decoder accepts is an instruction of the row of its opcode byte: its bytes, as many as the row says, and the bytes
after it. -/
theorem decode_ok {bytes rest : List Byte} {i : Instr} (h : decode bytes = .ok (i, rest)) :
    encode i ++ rest = bytes ∧ opLength (opcode i) = some (encode i).length := by
  unfold decode at h
  split at h
  · cases h
  · split at h
    case h_1 => cases h
    case h_2 hrow =>
      cases h
      obtain ⟨rfl, hoperand⟩ := opMap_agrees hrow
      simp [encode, hoperand, opLength, hrow, Shape.length]
    case h_3 mk o1 tail hrow =>
      cases h
      obtain ⟨rfl, hoperand⟩ := opMap_agrees hrow o1
      simp [encode, hoperand, opLength, hrow, Shape.length]
    case h_4 mk o1 o2 tail hrow =>
      cases h
      obtain ⟨rfl, hoperand⟩ := opMap_agrees hrow (pair o2 o1)
      simp [encode, hoperand, opLength, hrow, Shape.length, lo_pair, hi_pair]
    case h_5 => cases h

theorem opLength_opcode (i : Instr) : opLength (opcode i) = some (encode i).length :=
  (decode_ok (Laws.RoundTrip.decode_encode i [])).2

theorem encode_length (i : Instr) : (encode i).length = i.operand.mode.length := by
  unfold encode
  cases i.operand with
  | memory m => cases m <;> rfl
  | _ => rfl

theorem mode_length_bounds (m : Mode) : 1 ≤ m.length ∧ m.length ≤ 3 := by
  cases m <;> decide

/-- An opcode byte has a row exactly when it is the opcode byte of some instruction (R87). -/
theorem opLength_eq_none_iff (op : Byte) : opLength op = none ↔ ∀ i : Instr, opcode i ≠ op := by
  constructor
  · rintro h i rfl
    simp [opLength_opcode] at h
  · intro h
    refine Option.map_eq_none_iff.mpr (Option.eq_none_iff_forall_ne_some.mpr fun shape hrow => ?_)
    have hagrees := opMap_agrees hrow
    cases shape with
    | none i => exact h i hagrees.1
    | byte mk => exact h (mk 0) (hagrees 0).1
    | word mk => exact h (mk 0) (hagrees 0).1

end Sys2Proof.Machine
end

section
/-! PROOFS. When an instruction completes, and when a fetch finds one (30_encoding.md R91). -/

namespace Sys2Proof.Machine

variable {i : Instr} {s : State}

/-! ## Every instruction completes but a JMP indirect (R94, R191) -/

theorem modifyTarget_next (tgt : Target) (s : State) (f : Byte → Flags → Byte × Flags) :
    ∃ t, modifyTarget tgt s f = .next t := by
  cases tgt with
  | acc => exact ⟨_, modifyTarget_acc s f⟩
  | mem m => exact ⟨_, modifyTarget_mem s m f⟩

/-- An instruction completes, or it is a JMP indirect: no address fails the range check (log 8), and without a memory operand there is
nothing to check. -/
theorem exec_next_or_jumpIndirect (i : Instr) (s : State) :
    (∃ t, exec i s = .next t) ∨ ∃ p, i.operand = .indirect p ∧ exec i s = jumpIndirect p s := by
  cases hm : i.mnemonic with
  | LDA => obtain ⟨src, -, he⟩ := exec_LDA hm; exact .inl ⟨_, (he s).trans (readOperand_eq s src _)⟩
  | LDX => obtain ⟨src, -, he⟩ := exec_LDX hm; exact .inl ⟨_, (he s).trans (readOperand_eq s src _)⟩
  | LDY => obtain ⟨src, -, he⟩ := exec_LDY hm; exact .inl ⟨_, (he s).trans (readOperand_eq s src _)⟩
  | ADC => obtain ⟨src, -, he⟩ := exec_ADC hm; exact .inl ⟨_, (he s).trans (readOperand_eq s src _)⟩
  | SBC => obtain ⟨src, -, he⟩ := exec_SBC hm; exact .inl ⟨_, (he s).trans (readOperand_eq s src _)⟩
  | AND => obtain ⟨src, -, he⟩ := exec_AND hm; exact .inl ⟨_, (he s).trans (readOperand_eq s src _)⟩
  | ORA => obtain ⟨src, -, he⟩ := exec_ORA hm; exact .inl ⟨_, (he s).trans (readOperand_eq s src _)⟩
  | EOR => obtain ⟨src, -, he⟩ := exec_EOR hm; exact .inl ⟨_, (he s).trans (readOperand_eq s src _)⟩
  | CMP => obtain ⟨src, -, he⟩ := exec_CMP hm; exact .inl ⟨_, (he s).trans (readOperand_eq s src _)⟩
  | CPX => obtain ⟨src, -, he⟩ := exec_CPX hm; exact .inl ⟨_, (he s).trans (readOperand_eq s src _)⟩
  | CPY => obtain ⟨src, -, he⟩ := exec_CPY hm; exact .inl ⟨_, (he s).trans (readOperand_eq s src _)⟩
  | BIT => obtain ⟨src, -, he⟩ := exec_BIT hm; exact .inl ⟨_, (he s).trans (readOperand_eq s src _)⟩
  | STA => obtain ⟨m, -, he⟩ := exec_STA hm; exact .inl ⟨_, (he s).trans (writeOperand_eq s m _)⟩
  | STX => obtain ⟨m, -, he⟩ := exec_STX hm; exact .inl ⟨_, (he s).trans (writeOperand_eq s m _)⟩
  | STY => obtain ⟨m, -, he⟩ := exec_STY hm; exact .inl ⟨_, (he s).trans (writeOperand_eq s m _)⟩
  | ASL => obtain ⟨tgt, -, he⟩ := exec_ASL hm; exact .inl (he s ▸ modifyTarget_next tgt s _)
  | LSR => obtain ⟨tgt, -, he⟩ := exec_LSR hm; exact .inl (he s ▸ modifyTarget_next tgt s _)
  | ROL => obtain ⟨tgt, -, he⟩ := exec_ROL hm; exact .inl (he s ▸ modifyTarget_next tgt s _)
  | ROR => obtain ⟨tgt, -, he⟩ := exec_ROR hm; exact .inl (he s ▸ modifyTarget_next tgt s _)
  | INC => obtain ⟨m, -, he⟩ := exec_INC hm; exact .inl ⟨_, (he s).trans (modifyTarget_mem s m _)⟩
  | DEC => obtain ⟨m, -, he⟩ := exec_DEC hm; exact .inl ⟨_, (he s).trans (modifyTarget_mem s m _)⟩
  | JMP =>
    obtain ⟨w, rfl⟩ | ⟨p, rfl⟩ := only_JMP hm
    · exact .inl ⟨_, rfl⟩
    · exact .inr ⟨p, rfl, rfl⟩
  | JSR => obtain ⟨w, rfl⟩ := only_JSR hm; exact .inl ⟨_, rfl⟩
  | BRK => obtain ⟨pad, rfl⟩ := only_BRK hm; exact .inl ⟨_, rfl⟩
  | BCC => obtain ⟨d, rfl⟩ := only_BCC hm; exact .inl ⟨_, rfl⟩
  | BCS => obtain ⟨d, rfl⟩ := only_BCS hm; exact .inl ⟨_, rfl⟩
  | BEQ => obtain ⟨d, rfl⟩ := only_BEQ hm; exact .inl ⟨_, rfl⟩
  | BMI => obtain ⟨d, rfl⟩ := only_BMI hm; exact .inl ⟨_, rfl⟩
  | BNE => obtain ⟨d, rfl⟩ := only_BNE hm; exact .inl ⟨_, rfl⟩
  | BPL => obtain ⟨d, rfl⟩ := only_BPL hm; exact .inl ⟨_, rfl⟩
  | BVC => obtain ⟨d, rfl⟩ := only_BVC hm; exact .inl ⟨_, rfl⟩
  | BVS => obtain ⟨d, rfl⟩ := only_BVS hm; exact .inl ⟨_, rfl⟩
  | RTS => cases only_RTS hm; exact .inl ⟨_, rfl⟩
  | RTI => cases only_RTI hm; exact .inl ⟨_, rfl⟩
  | INX => cases only_INX hm; exact .inl ⟨_, rfl⟩
  | INY => cases only_INY hm; exact .inl ⟨_, rfl⟩
  | DEX => cases only_DEX hm; exact .inl ⟨_, rfl⟩
  | DEY => cases only_DEY hm; exact .inl ⟨_, rfl⟩
  | TAX => cases only_TAX hm; exact .inl ⟨_, rfl⟩
  | TAY => cases only_TAY hm; exact .inl ⟨_, rfl⟩
  | TXA => cases only_TXA hm; exact .inl ⟨_, rfl⟩
  | TYA => cases only_TYA hm; exact .inl ⟨_, rfl⟩
  | TSX => cases only_TSX hm; exact .inl ⟨_, rfl⟩
  | TXS => cases only_TXS hm; exact .inl ⟨_, rfl⟩
  | PHA => cases only_PHA hm; exact .inl ⟨_, rfl⟩
  | PLA => cases only_PLA hm; exact .inl ⟨_, rfl⟩
  | PHP => cases only_PHP hm; exact .inl ⟨_, rfl⟩
  | PLP => cases only_PLP hm; exact .inl ⟨_, rfl⟩
  | SEC => cases only_SEC hm; exact .inl ⟨_, rfl⟩
  | CLC => cases only_CLC hm; exact .inl ⟨_, rfl⟩
  | SED => cases only_SED hm; exact .inl ⟨_, rfl⟩
  | CLD => cases only_CLD hm; exact .inl ⟨_, rfl⟩
  | SEI => cases only_SEI hm; exact .inl ⟨_, rfl⟩
  | CLI => cases only_CLI hm; exact .inl ⟨_, rfl⟩
  | CLV => cases only_CLV hm; exact .inl ⟨_, rfl⟩
  | NOP => cases only_NOP hm; exact .inl ⟨_, rfl⟩

/-- The only stop of an instruction is `Unmodelled` (R191). -/
theorem exec_ne_undefinedOpcode (i : Instr) (s : State) (byte : Byte) (addr : Addr) :
    exec i s ≠ .fault (.undefinedOpcode byte addr) := by
  rcases exec_next_or_jumpIndirect i s with ⟨t, ht⟩ | ⟨p, -, hp⟩
  · simp [ht]
  · rw [hp]
    rcases jumpIndirect_cases p s with ⟨-, -, hj⟩ | ⟨-, hj⟩ <;> simp [hj]

/-! ## The bytes of an instruction (R64, R88) -/

theorem fetchBytes_eq_take (m : Memory) (pc : Addr) {len : Nat} (hpos : 1 ≤ len) (hlen : len ≤ 3) :
    fetchBytes m pc len = [m.read pc, m.read (pc + 1), m.read (pc + 2)].take len := by
  interval_cases len <;> rfl

/-- As many bytes as the row of the opcode byte says always decode. -/
theorem decode_fetchBytes {m : Memory} {pc : Addr} {len : Nat} (h : opLength (m.read pc) = some len) :
    ∃ i, decode (fetchBytes m pc len) = .ok (i, []) := by
  obtain ⟨shape, hrow, rfl⟩ := Option.map_eq_some_iff.mp h
  cases shape <;> simp [Shape.length, fetchBytes, operandAddrs, List.range_succ, decode, hrow]

/-! ## What a fetch finds (R87, R91, R249) -/

theorem implementedLength_eq_none_iff (cfg : Config) (op : Byte) :
    implementedLength cfg op = none ↔ (∀ i : Instr, opcode i ≠ op) ∨ op ∉ cfg.implemented := by
  rw [← opLength_eq_none_iff]
  by_cases h : op ∈ cfg.implemented <;> simp [implementedLength, h]

theorem implementedLength_opcode (h : i.wellFormed s.cfg = true) :
    implementedLength s.cfg (opcode i) = some i.operand.mode.length := by
  have himpl : s.cfg.implemented.contains (opcode i) = true := h
  rw [implementedLength, if_pos himpl, opLength_opcode, encode_length]

/-- A fetch past the checks of R249 gives the instruction that the bytes at `PC` decode to. -/
theorem fetchInstr_eq_ok {len : Nat} {rest : List Byte} (hpc : intercepted s.cfg s.pc = false)
    (hlen : implementedLength s.cfg (s.mem.read s.pc) = some len)
    (hops : ∀ b ∈ operandAddrs s.pc len, intercepted s.cfg b = false)
    (hdec : decode (fetchBytes s.mem s.pc len) = .ok (i, rest)) : fetchInstr s = .ok i := by
  have hfind : (operandAddrs s.pc len).find? (intercepted s.cfg) = none := by simpa using hops
  simp [fetchInstr, hpc, hlen, hfind, hdec]

/-- A fetch finds an opcode undefined exactly when its byte has no implemented row: the bytes of a row always decode. -/
theorem fetchInstr_undefinedOpcode_iff {byte : Byte} {addr : Addr} (hpc : intercepted s.cfg s.pc = false) :
    fetchInstr s = .error (.undefinedOpcode byte addr) ↔
      implementedLength s.cfg (s.mem.read s.pc) = none ∧ byte = s.mem.read s.pc ∧ addr = s.pc := by
  cases hlen : implementedLength s.cfg (s.mem.read s.pc) with
  | none => simp [fetchInstr, hpc, hlen, eq_comm]
  | some len =>
    have hrow : opLength (s.mem.read s.pc) = some len := by
      unfold implementedLength at hlen
      split_ifs at hlen
      exact hlen
    obtain ⟨i, hdec⟩ := decode_fetchBytes hrow
    cases hfind : (operandAddrs s.pc len).find? (intercepted s.cfg) <;> simp [fetchInstr, hpc, hlen, hfind, hdec]

/-- A step stops with a fault in its fetch or in its instruction. -/
theorem step_fault_iff (s : State) (f : Fault) :
    step s = .fault f ↔ fetchInstr s = .error f ∨ ∃ i, fetchInstr s = .ok i ∧ exec i s = .fault f := by
  unfold step
  cases fetchInstr s with
  | error g => simp
  | ok i => cases hx : exec i s <;> simp [hx]

/-- Only the fetch finds an opcode undefined. -/
theorem step_undefinedOpcode_iff {byte : Byte} {addr : Addr} (hpc : intercepted s.cfg s.pc = false) :
    step s = .fault (.undefinedOpcode byte addr) ↔
      implementedLength s.cfg (s.mem.read s.pc) = none ∧ byte = s.mem.read s.pc ∧ addr = s.pc := by
  simp only [step_fault_iff, fetchInstr_undefinedOpcode_iff hpc, exec_ne_undefinedOpcode, and_false, exists_false,
    or_false]

end Sys2Proof.Machine
end

section
/-! PROOFS. The statements of 30_encoding.md: the round trips of the encoding, the resolver, and what a step does with the bytes it
fetches. -/

namespace Sys2Proof.Machine

/-! ## The resolver in numbers (R83) -/

theorem zext_toNat (b : Byte) : (zext b).toNat = b.toNat :=
  BitVec.toNat_setWidth_of_le (by decide)

theorem zext_eq_ofNat (b : Byte) : zext b = BitVec.ofNat 16 b.toNat := by
  rw [← zext_toNat, BitVec.ofNat_toNat, BitVec.setWidth_eq]

theorem pair_toNat (h l : Byte) : (pair h l).toNat = h.toNat * 256 + l.toNat := toNat_append_eq_add h l

/-- A pointer in page 0, its high byte at the next address of the page (R52, R83). -/
theorem read16zp_toNat (m : Memory) (z : Byte) : (m.read16zp z).toNat =
    (m.read (BitVec.ofNat 16 ((z.toNat + 1) % 256))).toNat * 256 + (m.read (BitVec.ofNat 16 z.toNat)).toNat := by
  have hnext : (z + 1).toNat = (z.toNat + 1) % 256 := BitVec.toNat_add z 1
  rw [Memory.read16zp, pair_toNat, zext_eq_ofNat, zext_eq_ofNat, hnext]

/-! ## The unassigned bytes (R87) -/

theorem unassigned_count : ((List.range 256).filter fun k => (opMap (BitVec.ofNat 8 k)).isNone).length = 105 := by
  decide +kernel

/-! ## The statements -/

/-- Settles O2: by the round trip of each constructor. -/
theorem encodeThenDecodeGivesBack : Obligations.EncodeThenDecodeGivesBack :=
  Laws.RoundTrip.decode_encode

/-- Settles O3: every row of the opcode map agrees with the encoder. -/
theorem decodedBytesEncodeBack : Obligations.DecodedBytesEncodeBack :=
  fun _ _ _ h => (decode_ok h).1

/-- Settles O5: a byte is undefined exactly when it has no implemented row, which only the fetch looks for. -/
theorem undefinedOpcodeHalts : Obligations.UndefinedOpcodeHalts := by
  refine ⟨unassigned_count, fun s hpc => ⟨fun hundef => ?_, fun byte addr hstep => ?_⟩⟩
  · have hstep : step s = .fault (.undefinedOpcode (s.mem.read s.pc) s.pc) :=
      (step_undefinedOpcode_iff hpc).mpr ⟨(implementedLength_eq_none_iff _ _).mpr hundef, rfl, rfl⟩
    exact ⟨hstep, fun verbose => by rw [stepApi, hstep]; rfl⟩
  · obtain ⟨hnone, hbyte, haddr⟩ := (step_undefinedOpcode_iff hpc).mp hstep
    exact ⟨hbyte, haddr, (implementedLength_eq_none_iff _ _).mp hnone⟩

/-- Settles O8: the one instruction that can stop is JMP indirect, and it jumps unless a pointer byte is intercepted. -/
theorem everyInstructionCompletes : Obligations.EveryInstructionCompletes := by
  intro i s hpointer
  rcases exec_next_or_jumpIndirect i s with hnext | ⟨p, ho, hjump⟩
  · exact hnext
  · obtain ⟨hp, hp1⟩ := hpointer p ho
    rcases jumpIndirect_cases p s with ⟨-, -, hj⟩ | ⟨hbad, -⟩
    · exact ⟨_, hjump.trans hj⟩
    · simp [hp, hp1] at hbad

/-- Settles O24: row by row, each sum in the width of its address. -/
theorem resolverRows : Obligations.ResolverRows := by
  intro o w s
  refine ⟨zext_toNat o, ?_, ?_, rfl, ?_, ?_, ?_, ?_, BitVec.toNat_add s.pc 1, rfl, rfl⟩
  · exact (zext_toNat _).trans (BitVec.toNat_add o s.x)
  · exact (zext_toNat _).trans (BitVec.toNat_add o s.y)
  · simp only [effectiveAddr, BitVec.toNat_add, zext_toNat]
  · simp only [effectiveAddr, BitVec.toNat_add, zext_toNat]
  · simp only [effectiveAddr, read16zp_toNat, BitVec.toNat_add]
  · simp only [effectiveAddr, BitVec.toNat_add, read16zp_toNat, zext_toNat]

/-- Settles O1: each word by evaluation of the decoder. -/
theorem sampleWordsDecode : Obligations.SampleWordsDecode :=
  ⟨rfl, rfl, rfl, rfl, rfl, rfl, rfl, rfl, rfl, rfl, rfl, rfl⟩

/-- Settles O4: from the row of the opcode byte, and from the operand bytes of the format. -/
theorem lengthFromOpcodeAlone : Obligations.LengthFromOpcodeAlone := by
  intro i
  refine ⟨opLength_opcode i, encode_length i, ?_⟩
  rw [encode_length]
  exact mode_length_bounds _

/-- Settles O6: the bytes that the fetch takes from the three at `PC` are the encoding of the instruction they decode to. -/
theorem stepRunsDecodedInstruction : Obligations.StepRunsDecodedInstruction := by
  intro s i rest hdec hwf hplain
  have hbytes := (decode_ok hdec).1
  have hop : opcode i = s.mem.read s.pc := (List.cons.inj hbytes).1
  obtain ⟨hpos, hle⟩ := mode_length_bounds i.operand.mode
  have htake : fetchBytes s.mem s.pc i.operand.mode.length = encode i := by
    rw [fetchBytes_eq_take _ _ hpos hle, ← hbytes, ← encode_length, List.take_left]
  have hlen : implementedLength s.cfg (s.mem.read s.pc) = some i.operand.mode.length := hop ▸ implementedLength_opcode hwf
  have hops : ∀ b ∈ operandAddrs s.pc i.operand.mode.length, intercepted s.cfg b = false := by
    simp only [operandAddrs, List.mem_map, List.mem_range]
    rintro _ ⟨k, hk, rfl⟩
    exact hplain (k + 1) (by omega)
  have hdecode : decode (fetchBytes s.mem s.pc i.operand.mode.length) = .ok (i, []) := by
    simpa [htake] using Laws.RoundTrip.decode_encode i []
  have hfetch : fetchInstr s = .ok i := fetchInstr_eq_ok (by simpa using hplain 0 hpos) hlen hops hdecode
  simp only [step, hfetch]
  cases exec i s <;> rfl

end Sys2Proof.Machine
end

section
/-! PROOFS. The statements of 40_load_store.md: what a load or a store does to the whole state. -/

namespace Sys2Proof.Machine

variable {i : Instr} {s : State}

/-! ## Instructions that read or write one operand end at the next instruction (R25, R91) -/

/-- An instruction that reads its operand completes with the effect of its mnemonic and `PC` past it, if that effect leaves `PC`
alone. -/
theorem exec_eq_of_readOperand {src : Source} {f : Byte → State → State} (ho : i.operand = src.operand)
    (he : exec i s = readOperand src s f) (hpc : ∀ m t, (f m t).pc = t.pc) :
    exec i s = .next ((f (operandByte src s) (afterOperand src s)).setPc (nextPc i s)) := by
  rw [he, readOperand_eq, advance, hpc, afterOperand_pc, nextPc, ho]

/-- An instruction that writes its operand completes with one access and one store, and `PC` past it. -/
theorem exec_eq_of_writeOperand {m : MemOperand} {v : Byte} (ho : i.operand = .memory m)
    (he : exec i s = writeOperand m v s) :
    exec i s = .next ((store (effectiveAddr m s) v (access (effectiveAddr m s) s)).setPc (nextPc i s)) := by
  rw [he, writeOperand_eq, nextPc, ho]
  rfl

/-- A load completes with the operand in its register and Z and N from it; reading the operand leaves the flags alone, so they
are set in those of the start (R110 to R112). -/
theorem exec_eq_of_load {src : Source} (setReg : State → Byte → State) (ho : i.operand = src.operand)
    (he : exec i s = readOperand src s fun m t => (setReg t m).setFlags (setZN m t.flags))
    (hpc : ∀ t v, (setReg t v).pc = t.pc) :
    exec i s = .next (((setReg (afterOperand src s) (operandByte src s)).setFlags { s.flags with
      z := decide (operandByte src s = 0), n := (operandByte src s).msb }).setPc (nextPc i s)) := by
  rw [exec_eq_of_readOperand ho he fun m t => hpc t m, afterOperand_flags]
  rfl

/-! ## The statements -/

/-- Settles O36: a load, with A as its register. -/
theorem ldaLoadsAccumulator : Obligations.LdaLoadsAccumulator := by
  refine ⟨encodedAs_of_opRows (by decide +kernel), fun i s hm => ?_⟩
  obtain ⟨src, ho, he⟩ := exec_LDA hm
  exact ⟨src, ho, exec_eq_of_load .setA ho (he s) State.setA_pc⟩

/-- Settles O37: two loads, with X and Y as their registers. -/
theorem ldxLdyLoadIndexRegisters : Obligations.LdxLdyLoadIndexRegisters := by
  refine ⟨⟨encodedAs_of_opRows (by decide +kernel), fun i s hm => ?_⟩,
    ⟨encodedAs_of_opRows (by decide +kernel), fun i s hm => ?_⟩⟩
  · obtain ⟨src, ho, he⟩ := exec_LDX hm
    exact ⟨src, ho, exec_eq_of_load .setX ho (he s) State.setX_pc⟩
  · obtain ⟨src, ho, he⟩ := exec_LDY hm
    exact ⟨src, ho, exec_eq_of_load .setY ho (he s) State.setY_pc⟩

/-- Settles O38: each store is one access and one store of its register. -/
theorem storesWriteRegister : Obligations.StoresWriteRegister := by
  refine ⟨⟨encodedAs_of_opRows (by decide +kernel), fun i s hm => ?_⟩,
    ⟨encodedAs_of_opRows (by decide +kernel), fun i s hm => ?_⟩,
    ⟨encodedAs_of_opRows (by decide +kernel), fun i s hm => ?_⟩⟩
  · obtain ⟨m, ho, he⟩ := exec_STA hm
    exact ⟨m, ho, exec_eq_of_writeOperand ho (he s)⟩
  · obtain ⟨m, ho, he⟩ := exec_STX hm
    exact ⟨m, ho, exec_eq_of_writeOperand ho (he s)⟩
  · obtain ⟨m, ho, he⟩ := exec_STY hm
    exact ⟨m, ho, exec_eq_of_writeOperand ho (he s)⟩

end Sys2Proof.Machine
end

section
/-! PROOFS. Instructions that carry the decimal and the interrupt-disable flag through, said once for the statements on what these two
flags decide (41_arith_logic.md R125, 60_exceptions.md R248). -/

namespace Sys2Proof.Machine

variable {i : Instr} {s t : State}

/-- Flags with D and I put through two functions, so that one lemma serves changes of either. -/
def Flags.mapDI (d j : Bool → Bool) (f : Flags) : Flags := { f with d := d f.d, i := j f.i }

/-- The state with the D and I of its flags put through two functions. -/
def mapDI (d j : Bool → Bool) (s : State) : State := s.setFlags (s.flags.mapDI d j)

variable {d j : Bool → Bool}

theorem mapDI_flags (s : State) : (mapDI d j s).flags = s.flags.mapDI d j := rfl

theorem effectiveAddr_mapDI (m : MemOperand) (s : State) : effectiveAddr m (mapDI d j s) = effectiveAddr m s := by
  cases m <;> rfl

theorem loaded_mapDI (ea : Addr) (s : State) : loaded ea (mapDI d j s) = loaded ea s := rfl

theorem operandByte_mapDI (src : Source) (s : State) : operandByte src (mapDI d j s) = operandByte src s := by
  cases src <;> rfl

theorem afterOperand_mapDI (src : Source) (s : State) :
    afterOperand src (mapDI d j s) = mapDI d j (afterOperand src s) := by
  cases src <;> rfl

/-- An instruction that reads its operand carries D and I through, if its effect does. -/
theorem readOperand_mapDI {src : Source} {f : Byte → State → State} (h : readOperand src s f = .next t)
    (hf : ∀ m u, f m (mapDI d j u) = mapDI d j (f m u)) : readOperand src (mapDI d j s) f = .next (mapDI d j t) := by
  rw [readOperand_next h, readOperand_eq, operandByte_mapDI, afterOperand_mapDI, hf]
  rfl

theorem writeOperand_mapDI {m : MemOperand} {v : Byte} (h : writeOperand m v s = .next t) :
    writeOperand m v (mapDI d j s) = .next (mapDI d j t) := by
  rw [writeOperand_next h, writeOperand_eq]
  rfl

/-- A shift, rotate or count of its target carries D and I through, if its ALU function does. -/
theorem modifyTarget_mapDI {tgt : Target} {alu : Byte → Flags → Byte × Flags} (h : modifyTarget tgt s alu = .next t)
    (halu : ∀ m f, alu m (f.mapDI d j) = ((alu m f).1, (alu m f).2.mapDI d j)) :
    modifyTarget tgt (mapDI d j s) alu = .next (mapDI d j t) := by
  cases tgt with
  | acc =>
    cases h
    rw [modifyTarget_acc, mapDI_flags, halu]
    rfl
  | mem m =>
    rw [modifyTarget_mem] at h
    cases h
    rw [modifyTarget_mem, effectiveAddr_mapDI, loaded_mapDI, mapDI_flags, halu]
    rfl

theorem branch_mapDI {cond : Bool} {disp : Byte} (h : branch cond disp s = .next t) :
    branch cond disp (mapDI d j s) = .next (mapDI d j t) := by
  cases h
  cases cond <;> rfl

theorem jumpIndirect_mapDI {p : Addr} (h : jumpIndirect p s = .next t) :
    jumpIndirect p (mapDI d j s) = .next (mapDI d j t) := by
  obtain ⟨hp, hp1, hj⟩ | ⟨-, hj⟩ := jumpIndirect_cases p s
  · cases hj.symm.trans h
    obtain ⟨-, -, hjump⟩ | ⟨hbad, -⟩ := jumpIndirect_cases p (mapDI d j s)
    · exact hjump
    · simp [mapDI, hp, hp1] at hbad
  · cases hj.symm.trans h

/-- An instruction that neither computes with D, writes D or I, nor pushes them carries both through and does the same beside. -/
theorem exec_mapDI (hn : i.mnemonic ∉ [Mnemonic.ADC, .SBC, .SED, .CLD, .SEI, .CLI, .PLP, .RTI, .PHP, .BRK])
    (h : exec i s = .next t) : exec i (mapDI d j s) = .next (mapDI d j t) := by
  cases hm : i.mnemonic with
  | ADC | SBC | SED | CLD | SEI | CLI | PLP | RTI | PHP | BRK => simp [hm] at hn
  | LDA => obtain ⟨src, -, he⟩ := exec_LDA hm; exact (he _).trans (readOperand_mapDI ((he s).symm.trans h) fun _ _ => rfl)
  | LDX => obtain ⟨src, -, he⟩ := exec_LDX hm; exact (he _).trans (readOperand_mapDI ((he s).symm.trans h) fun _ _ => rfl)
  | LDY => obtain ⟨src, -, he⟩ := exec_LDY hm; exact (he _).trans (readOperand_mapDI ((he s).symm.trans h) fun _ _ => rfl)
  | AND => obtain ⟨src, -, he⟩ := exec_AND hm; exact (he _).trans (readOperand_mapDI ((he s).symm.trans h) fun _ _ => rfl)
  | ORA => obtain ⟨src, -, he⟩ := exec_ORA hm; exact (he _).trans (readOperand_mapDI ((he s).symm.trans h) fun _ _ => rfl)
  | EOR => obtain ⟨src, -, he⟩ := exec_EOR hm; exact (he _).trans (readOperand_mapDI ((he s).symm.trans h) fun _ _ => rfl)
  | CMP => obtain ⟨src, -, he⟩ := exec_CMP hm; exact (he _).trans (readOperand_mapDI ((he s).symm.trans h) fun _ _ => rfl)
  | CPX => obtain ⟨src, -, he⟩ := exec_CPX hm; exact (he _).trans (readOperand_mapDI ((he s).symm.trans h) fun _ _ => rfl)
  | CPY => obtain ⟨src, -, he⟩ := exec_CPY hm; exact (he _).trans (readOperand_mapDI ((he s).symm.trans h) fun _ _ => rfl)
  | BIT => obtain ⟨src, -, he⟩ := exec_BIT hm; exact (he _).trans (readOperand_mapDI ((he s).symm.trans h) fun _ _ => rfl)
  | STA => obtain ⟨m, -, he⟩ := exec_STA hm; exact (he _).trans (writeOperand_mapDI ((he s).symm.trans h))
  | STX => obtain ⟨m, -, he⟩ := exec_STX hm; exact (he _).trans (writeOperand_mapDI ((he s).symm.trans h))
  | STY => obtain ⟨m, -, he⟩ := exec_STY hm; exact (he _).trans (writeOperand_mapDI ((he s).symm.trans h))
  | ASL => obtain ⟨tgt, -, he⟩ := exec_ASL hm; exact (he _).trans (modifyTarget_mapDI ((he s).symm.trans h) fun _ _ => rfl)
  | LSR => obtain ⟨tgt, -, he⟩ := exec_LSR hm; exact (he _).trans (modifyTarget_mapDI ((he s).symm.trans h) fun _ _ => rfl)
  | ROL => obtain ⟨tgt, -, he⟩ := exec_ROL hm; exact (he _).trans (modifyTarget_mapDI ((he s).symm.trans h) fun _ _ => rfl)
  | ROR => obtain ⟨tgt, -, he⟩ := exec_ROR hm; exact (he _).trans (modifyTarget_mapDI ((he s).symm.trans h) fun _ _ => rfl)
  | INC => obtain ⟨m, -, he⟩ := exec_INC hm; exact (he _).trans (modifyTarget_mapDI ((he s).symm.trans h) fun _ _ => rfl)
  | DEC => obtain ⟨m, -, he⟩ := exec_DEC hm; exact (he _).trans (modifyTarget_mapDI ((he s).symm.trans h) fun _ _ => rfl)
  | JMP =>
    obtain ⟨w, rfl⟩ | ⟨p, rfl⟩ := only_JMP hm
    · cases h; rfl
    · exact jumpIndirect_mapDI h
  | JSR => obtain ⟨w, rfl⟩ := only_JSR hm; cases h; rfl
  | BCC => obtain ⟨disp, rfl⟩ := only_BCC hm; exact branch_mapDI h
  | BCS => obtain ⟨disp, rfl⟩ := only_BCS hm; exact branch_mapDI h
  | BEQ => obtain ⟨disp, rfl⟩ := only_BEQ hm; exact branch_mapDI h
  | BMI => obtain ⟨disp, rfl⟩ := only_BMI hm; exact branch_mapDI h
  | BNE => obtain ⟨disp, rfl⟩ := only_BNE hm; exact branch_mapDI h
  | BPL => obtain ⟨disp, rfl⟩ := only_BPL hm; exact branch_mapDI h
  | BVC => obtain ⟨disp, rfl⟩ := only_BVC hm; exact branch_mapDI h
  | BVS => obtain ⟨disp, rfl⟩ := only_BVS hm; exact branch_mapDI h
  | RTS => cases only_RTS hm; cases h; rfl
  | INX => cases only_INX hm; cases h; rfl
  | INY => cases only_INY hm; cases h; rfl
  | DEX => cases only_DEX hm; cases h; rfl
  | DEY => cases only_DEY hm; cases h; rfl
  | TAX => cases only_TAX hm; cases h; rfl
  | TAY => cases only_TAY hm; cases h; rfl
  | TXA => cases only_TXA hm; cases h; rfl
  | TYA => cases only_TYA hm; cases h; rfl
  | TSX => cases only_TSX hm; cases h; rfl
  | TXS => cases only_TXS hm; cases h; rfl
  | PHA => cases only_PHA hm; cases h; rfl
  | PLA => cases only_PLA hm; cases h; rfl
  | SEC => cases only_SEC hm; cases h; rfl
  | CLC => cases only_CLC hm; cases h; rfl
  | CLV => cases only_CLV hm; cases h; rfl
  | NOP => cases only_NOP hm; cases h; rfl

end Sys2Proof.Machine
end

section
/-! PROOFS. The statements of 41_arith_logic.md: addition and subtraction in binary and decimal mode, the logical instructions, and what
the decimal flag decides. -/

namespace Sys2Proof.Machine

variable {i : Instr} {s : State}

/-! ## Instructions that combine the accumulator with an operand (R120, R121, R126 to R128) -/

/-- An instruction that combines A with its operand completes with the ALU's result in A and its flags. The operand read leaves A,
the flags and the configuration alone, so the ALU works on those of the start. -/
theorem exec_eq_of_accumulate {src : Source} (alu : Config → Byte → Byte → Flags → Byte × Flags) {r : Byte} {f : Flags}
    (ho : i.operand = src.operand)
    (he : exec i s = readOperand src s fun m t =>
      (t.setA (alu t.cfg t.a m t.flags).1).setFlags (alu t.cfg t.a m t.flags).2)
    (hr : alu s.cfg s.a (operandByte src s) s.flags = (r, f)) :
    exec i s = .next { afterOperand src s with a := r, flags := f, pc := nextPc i s } := by
  rw [exec_eq_of_readOperand ho he fun _ _ => rfl, afterOperand_cfg, afterOperand_a, afterOperand_flags, hr]
  rfl

/-! ## Signed overflow (R120, R121) -/

theorem and_0x80_ne_zero (b : Byte) : (b &&& 0x80 != 0) = b.msb := by
  have h : b &&& 0x80 = if b.getLsbD 7 then 0x80 else 0 := BitVec.and_twoPow b 7
  rw [h, BitVec.msb_eq_getLsbD_last]
  cases b.getLsbD 7 <;> rfl

/-- What the overflow test compares: bit 7 of two pairs of bytes. -/
theorem signs_differ (x y z w : Byte) : (((x ^^^ y) &&& (z ^^^ w) &&& 0x80) != 0) =
    decide (¬(128 ≤ x.toNat ↔ 128 ≤ y.toNat) ∧ ¬(128 ≤ z.toNat ↔ 128 ≤ w.toNat)) := by
  rw [and_0x80_ne_zero, BitVec.msb_and, BitVec.msb_xor, BitVec.msb_xor, Bool.eq_iff_iff]
  simp [BitVec.msb_eq_decide]

/-- The sign of the result differs from both operands' signs exactly when the signed sum lies outside a byte. -/
theorem adc_overflow (a m : Byte) (c : Bool) :
    (((a ^^^ BitVec.ofNat 8 (a.toNat + m.toNat + c.toNat)) &&& (m ^^^ BitVec.ofNat 8 (a.toNat + m.toNat + c.toNat))
      &&& 0x80) != 0) = decide (a.toInt + m.toInt + c.toNat < -128 ∨ 127 < a.toInt + m.toInt + c.toNat) := by
  have hc := Bool.toNat_le c
  rw [signs_differ, decide_eq_decide, BitVec.toNat_ofNat, BitVec.toInt_eq_toNat_cond, BitVec.toInt_eq_toNat_cond]
  split_ifs <;> omega

/-- The operands' signs differ and the result's is not the minuend's exactly when the signed difference lies outside a byte. -/
theorem sbc_overflow (a m : Byte) (c : Bool) :
    (((a ^^^ m) &&& (a ^^^ BitVec.ofInt 8 ((a.toNat : Int) - m.toNat - (1 - c.toNat))) &&& 0x80) != 0) =
      decide (a.toInt - m.toInt - (1 - c.toNat) < -128 ∨ 127 < a.toInt - m.toInt - (1 - c.toNat)) := by
  have hc := Bool.toNat_le c
  rw [signs_differ, decide_eq_decide, BitVec.toNat_ofInt, BitVec.toInt_eq_toNat_cond, BitVec.toInt_eq_toNat_cond]
  split_ifs <;> omega

/-! ## Addition and subtraction in each mode (R120, R121) -/

theorem aluAdc_binary (rule : BcdRule) (a m : Byte) {f : Flags} (hd : f.d = false) :
    aluAdc rule a m f = (BitVec.ofNat 8 (a.toNat + m.toNat + f.c.toNat),
      setZN (BitVec.ofNat 8 (a.toNat + m.toNat + f.c.toNat)) { f with
        c := decide (256 ≤ a.toNat + m.toNat + f.c.toNat),
        v := decide (a.toInt + m.toInt + f.c.toNat < -128 ∨ 127 < a.toInt + m.toInt + f.c.toNat) }) := by
  rw [aluAdc, hd, ← adc_overflow]
  rfl

theorem aluAdc_decimal (rule : BcdRule) (a m : Byte) {f : Flags} (hd : f.d = true) :
    aluAdc rule a m f = ((bcdAdc rule a m f.c).1, setZN (bcdAdc rule a m f.c).1 { f with c := (bcdAdc rule a m f.c).2 }) :=
  if_pos hd

theorem aluSbc_binary (rule : BcdRule) (a m : Byte) {f : Flags} (hd : f.d = false) :
    aluSbc rule a m f = (BitVec.ofInt 8 ((a.toNat : Int) - m.toNat - (1 - f.c.toNat)),
      setZN (BitVec.ofInt 8 ((a.toNat : Int) - m.toNat - (1 - f.c.toNat))) { f with
        c := decide (0 ≤ (a.toNat : Int) - m.toNat - (1 - f.c.toNat)),
        v := decide (a.toInt - m.toInt - (1 - f.c.toNat) < -128 ∨ 127 < a.toInt - m.toInt - (1 - f.c.toNat)) }) := by
  rw [aluSbc, hd, ← sbc_overflow]
  rfl

theorem aluSbc_decimal (rule : BcdRule) (a m : Byte) {f : Flags} (hd : f.d = true) :
    aluSbc rule a m f = ((bcdSbc rule a m f.c).1, setZN (bcdSbc rule a m f.c).1 { f with c := (bcdSbc rule a m f.c).2 }) :=
  if_pos hd

/-! ## Subtraction as addition of the complement (R121) -/

theorem not_toInt (m : Byte) : (~~~m).toInt = -m.toInt - 1 := by
  rw [BitVec.toInt_eq_toNat_cond, BitVec.toInt_eq_toNat_cond, BitVec.toNat_not]
  split_ifs <;> omega

/-- In binary mode the difference is 256 below the sum with the complement, and the signed values are equal. -/
theorem aluSbc_eq_aluAdc (rule rule' : BcdRule) (a m : Byte) {f : Flags} (hd : f.d = false) :
    aluSbc rule a m f = aluAdc rule' a (m ^^^ 0xFF) f := by
  have hxor : m ^^^ 0xFF = ~~~m := BitVec.xor_allOnes
  have hnot : (~~~m).toNat = 255 - m.toNat := BitVec.toNat_not
  have hbyte : BitVec.ofInt 8 ((a.toNat : Int) - m.toNat - (1 - f.c.toNat)) =
      BitVec.ofNat 8 (a.toNat + (~~~m).toNat + f.c.toNat) := by
    apply BitVec.eq_of_toNat_eq
    rw [BitVec.toNat_ofInt, BitVec.toNat_ofNat]
    omega
  have hcarry : 0 ≤ (a.toNat : Int) - m.toNat - (1 - f.c.toNat) ↔ 256 ≤ a.toNat + (~~~m).toNat + f.c.toNat := by
    omega
  have hsigned : a.toInt - m.toInt - (1 - f.c.toNat) = a.toInt + (~~~m).toInt + f.c.toNat := by
    rw [not_toInt]
    omega
  rw [aluSbc_binary _ _ _ hd, aluAdc_binary _ _ _ hd, hxor, hbyte, decide_eq_decide.mpr hcarry, hsigned]

/-! ## The statements -/

/-- Settles O35: D is carried through unread; SEI and CLI, which write I, leave D alone by definition. -/
theorem decimalFlagAffectsAdcSbcOnly : Obligations.DecimalFlagAffectsAdcSbcOnly := by
  intro i s t v hn h
  by_cases hi : i.mnemonic ∈ [Mnemonic.SEI, .CLI]
  · simp only [List.mem_cons, List.not_mem_nil, or_false] at hi
    obtain hm | hm := hi
    · cases only_SEI hm; cases h; rfl
    · cases only_CLI hm; cases h; rfl
  · have hmap (u : State) : withD v u = mapDI (fun _ => v) id u := rfl
    rw [hmap, hmap]
    exact exec_mapDI (by simp_all) h

/-- Settles O39: mode by mode, from what the ALU answers. -/
theorem adcAddsWithCarry : Obligations.AdcAddsWithCarry := by
  refine ⟨encodedAs_of_opRows (by decide +kernel), fun i s hm => ?_⟩
  obtain ⟨src, ho, he⟩ := exec_ADC hm
  have hexec {r f} := exec_eq_of_accumulate (fun cfg => aluAdc cfg.bcdAdc) (r := r) (f := f) ho (he s)
  exact ⟨src, ho, fun hd => hexec (aluAdc_binary _ _ _ hd), fun hd => hexec (aluAdc_decimal _ _ _ hd)⟩

/-- Settles O40: mode by mode, from what the ALU answers, and by the complement in binary mode. -/
theorem sbcSubtractsWithBorrow : Obligations.SbcSubtractsWithBorrow := by
  refine ⟨⟨encodedAs_of_opRows (by decide +kernel), fun i s hm => ?_⟩,
    fun rule rule' a m _ => aluSbc_eq_aluAdc rule rule' a m⟩
  obtain ⟨src, ho, he⟩ := exec_SBC hm
  have hexec {r f} := exec_eq_of_accumulate (fun cfg => aluSbc cfg.bcdSbc) (r := r) (f := f) ho (he s)
  exact ⟨src, ho, fun hd => hexec (aluSbc_binary _ _ _ hd), fun hd => hexec (aluSbc_decimal _ _ _ hd)⟩

/-- Settles O41: on valid operands the table plays no part, and the default follows the law. -/
theorem decimalArithmeticFollowsLaw : Obligations.DecimalArithmeticFollowsLaw := by
  intro rule a m c ha1 ha0 hm1 hm0
  have ha := (bcdValid_iff a).mpr ⟨ha1, ha0⟩
  have hm := (bcdValid_iff m).mpr ⟨hm1, hm0⟩
  have hv := Bool.and_eq_true_iff.mpr ⟨ha, hm⟩
  exact ⟨(bcdConfigured_valid hv).trans (bcdAdcDefault_eq_law c ha hm),
    (bcdConfigured_valid hv).trans (bcdSbcDefault_eq_law c ha hm)⟩

/-- Settles O43: each is a bitwise operation of the ALU on A and the operand. -/
theorem logicCombinesAccumulator : Obligations.LogicCombinesAccumulator := by
  refine ⟨⟨encodedAs_of_opRows (by decide +kernel), fun i s hm => ?_⟩,
    ⟨encodedAs_of_opRows (by decide +kernel), fun i s hm => ?_⟩,
    ⟨encodedAs_of_opRows (by decide +kernel), fun i s hm => ?_⟩⟩
  · obtain ⟨src, ho, he⟩ := exec_AND hm
    exact ⟨src, ho, exec_eq_of_accumulate (fun _ => aluAnd) ho (he s) rfl⟩
  · obtain ⟨src, ho, he⟩ := exec_ORA hm
    exact ⟨src, ho, exec_eq_of_accumulate (fun _ => aluOra) ho (he s) rfl⟩
  · obtain ⟨src, ho, he⟩ := exec_EOR hm
    exact ⟨src, ho, exec_eq_of_accumulate (fun _ => aluEor) ho (he s) rfl⟩

end Sys2Proof.Machine
end

section
/-! PROOFS. The statements of 42_shift.md: what a shift or a rotate does to the whole state, and its arithmetic in numbers. -/

namespace Sys2Proof.Machine

variable {i : Instr} {s : State}

/-! ## Instructions that read and write one target (42_shift.md, R153) -/

/-- An instruction that works on the accumulator completes with the ALU's result in A, its flags, and `PC` past it. -/
theorem exec_eq_of_modifyAccumulator {alu : Byte → Flags → Byte × Flags} {r : Byte} {f : Flags}
    (ho : i.operand = .accumulator) (he : exec i s = modifyTarget .acc s alu) (hr : alu s.a s.flags = (r, f)) :
    exec i s = .next { s with a := r, flags := f, pc := nextPc i s } := by
  rw [he, modifyTarget_acc, hr, nextPc, ho]
  rfl

/-- An instruction that works on a byte of memory completes with one load and one store of the ALU's result, its flags, and `PC`
past it. -/
theorem exec_eq_of_modifyMemory {m : MemOperand} {alu : Byte → Flags → Byte × Flags} {r : Byte} {f : Flags}
    (ho : i.operand = .memory m) (he : exec i s = modifyTarget (.mem m) s alu)
    (hr : alu (loaded (effectiveAddr m s) s) s.flags = (r, f)) :
    exec i s = .next { store (effectiveAddr m s) r (afterLoad (effectiveAddr m s) s) with
      flags := f, pc := nextPc i s } := by
  rw [he, modifyTarget_mem, hr, nextPc, ho]
  rfl

/-- `i` completes on its target with result `r m` and flags `f m` of the operand `m`, whichever form it has: "Every shift has the
same operand handling" (42_shift.md). -/
def Modifies (i : Instr) (s : State) (r : Byte → Byte) (f : Byte → Flags) : Target → Prop
  | .acc => exec i s = .next { s with a := r s.a, flags := f s.a, pc := nextPc i s }
  | .mem mo =>
    let ea := effectiveAddr mo s
    exec i s = .next { store ea (r (loaded ea s)) (afterLoad ea s) with flags := f (loaded ea s), pc := nextPc i s }

theorem modifies_of_modifyTarget {tgt : Target} {alu : Byte → Flags → Byte × Flags} {r : Byte → Byte} {f : Byte → Flags}
    (ho : i.operand = tgt.operand) (he : exec i s = modifyTarget tgt s alu) (hr : ∀ m, alu m s.flags = (r m, f m)) :
    Modifies i s r f tgt := by
  cases tgt with
  | acc => exact exec_eq_of_modifyAccumulator ho he (hr _)
  | mem m => exact exec_eq_of_modifyMemory ho he (hr _)

/-! ## The bit shifted out (R140 to R143) -/

theorem byte_getLsbD_seven (m : Byte) : m.getLsbD 7 = decide (128 ≤ m.toNat) :=
  (BitVec.msb_eq_getLsbD_last m).symm.trans (BitVec.msb_eq_decide m)

theorem byte_getLsbD_zero (m : Byte) : m.getLsbD 0 = decide (m.toNat % 2 = 1) :=
  Nat.testBit_zero m.toNat

/-! ## The byte shifted, in numbers (R140 to R143) -/

theorem byte_shiftLeft_one (m : Byte) : m <<< 1 = BitVec.ofNat 8 (m.toNat * 2) := by
  apply BitVec.eq_of_toNat_eq
  rw [BitVec.toNat_shiftLeft, BitVec.toNat_ofNat, Nat.shiftLeft_eq, pow_one]

theorem byte_shiftRight_one (m : Byte) : m >>> 1 = BitVec.ofNat 8 (m.toNat / 2) := by
  apply BitVec.eq_of_toNat_eq
  rw [BitVec.toNat_ushiftRight, BitVec.toNat_ofNat, Nat.shiftRight_eq_div_pow, pow_one]
  omega

/-- The carry enters bit 0, which is clear after the shift, so or-ing it in adds it. -/
theorem byte_shiftLeft_one_or_carry (m : Byte) (c : Bool) :
    m <<< 1 ||| BitVec.ofNat 8 c.toNat = BitVec.ofNat 8 (m.toNat * 2 % 256 + c.toNat) := by
  have hc : c.toNat < 2 ^ 1 := Bool.toNat_lt c
  have hbyte : m <<< 1 = BitVec.ofNat 8 (2 ^ 1 * (m.toNat % 128)) := by
    apply BitVec.eq_of_toNat_eq
    rw [byte_shiftLeft_one, BitVec.toNat_ofNat, BitVec.toNat_ofNat]
    omega
  have heven : m.toNat * 2 % 256 = 2 ^ 1 * (m.toNat % 128) := by omega
  rw [hbyte, heven, ← BitVec.ofNat_or, ← Nat.two_pow_add_eq_or_of_lt hc]

/-- The carry enters bit 7, which is clear after the shift, so or-ing it in adds it. -/
theorem byte_shiftRight_one_or_carry (m : Byte) (c : Bool) :
    m >>> 1 ||| BitVec.ofNat 8 (c.toNat * 128) = BitVec.ofNat 8 (m.toNat / 2 + 128 * c.toNat) := by
  have hlow : m.toNat / 2 < 2 ^ 7 := by omega
  rw [byte_shiftRight_one, ← BitVec.ofNat_or, Nat.or_comm, Nat.mul_comm c.toNat, Nat.add_comm]
  exact congrArg _ (Nat.two_pow_add_eq_or_of_lt hlow c.toNat).symm

/-! ## What the ALU answers (R140 to R143) -/

theorem aluAsl_eq (m : Byte) (f : Flags) : aluAsl m f = (BitVec.ofNat 8 (m.toNat * 2),
    setZN (BitVec.ofNat 8 (m.toNat * 2)) { f with c := decide (128 ≤ m.toNat) }) := by
  rw [aluAsl, byte_shiftLeft_one, byte_getLsbD_seven]

theorem aluLsr_eq (m : Byte) (f : Flags) : aluLsr m f = (BitVec.ofNat 8 (m.toNat / 2),
    setZN (BitVec.ofNat 8 (m.toNat / 2)) { f with c := decide (m.toNat % 2 = 1) }) := by
  rw [aluLsr, byte_shiftRight_one, byte_getLsbD_zero]

theorem aluRol_eq (m : Byte) (f : Flags) : aluRol m f = (BitVec.ofNat 8 (m.toNat * 2 % 256 + f.c.toNat),
    setZN (BitVec.ofNat 8 (m.toNat * 2 % 256 + f.c.toNat)) { f with c := decide (128 ≤ m.toNat) }) := by
  rw [aluRol, bit, byte_shiftLeft_one_or_carry, byte_getLsbD_seven]

theorem aluRor_eq (m : Byte) (f : Flags) : aluRor m f = (BitVec.ofNat 8 (m.toNat / 2 + 128 * f.c.toNat),
    setZN (BitVec.ofNat 8 (m.toNat / 2 + 128 * f.c.toNat)) { f with c := decide (m.toNat % 2 = 1) }) := by
  rw [aluRor, bit, byte_shiftRight_one_or_carry, byte_getLsbD_zero]

/-! ## The statements -/

/-- Settles O44: one ALU function each, on either target. -/
theorem aslLsrShift : Obligations.AslLsrShift := by
  refine ⟨⟨encodedAs_of_opRows (by decide +kernel), fun i s hm => ?_⟩,
    ⟨encodedAs_of_opRows (by decide +kernel), fun i s hm => ?_⟩⟩
  · obtain ⟨tgt, ho, he⟩ := exec_ASL hm
    have hmod := modifies_of_modifyTarget ho (he s) fun m => aluAsl_eq m s.flags
    exact ⟨tgt, ho, hmod⟩
  · obtain ⟨tgt, ho, he⟩ := exec_LSR hm
    have hmod := modifies_of_modifyTarget ho (he s) fun m => aluLsr_eq m s.flags
    exact ⟨tgt, ho, hmod⟩

/-- Settles O45: as the shifts, with the old carry added in the bit that the shift leaves clear. -/
theorem rolRorRotateThroughCarry : Obligations.RolRorRotateThroughCarry := by
  refine ⟨⟨encodedAs_of_opRows (by decide +kernel), fun i s hm => ?_⟩,
    ⟨encodedAs_of_opRows (by decide +kernel), fun i s hm => ?_⟩⟩
  · obtain ⟨tgt, ho, he⟩ := exec_ROL hm
    have hmod := modifies_of_modifyTarget ho (he s) fun m => aluRol_eq m s.flags
    exact ⟨tgt, ho, hmod⟩
  · obtain ⟨tgt, ho, he⟩ := exec_ROR hm
    have hmod := modifies_of_modifyTarget ho (he s) fun m => aluRor_eq m s.flags
    exact ⟨tgt, ho, hmod⟩

end Sys2Proof.Machine
end

section
/-! PROOFS. The statements of 43_compare_incdec_bit.md: comparisons and the bit test, which change flags only, and counting up and down
in memory and in the index registers. -/

namespace Sys2Proof.Machine

variable {i : Instr} {s : State}

/-! ## Instructions that only test their operand (R150 to R152, R159) -/

/-- An instruction that tests a register against its operand completes with the flags of the test, and changes no register. The
operand read leaves A and the flags alone, so the test sees those of the start. -/
theorem exec_eq_of_testOperand {src : Source} (test : Byte → Byte → Flags → Flags) {f : Flags}
    (ho : i.operand = src.operand)
    (he : exec i s = readOperand src s fun m t => t.setFlags (test t.a m t.flags))
    (hf : test s.a (operandByte src s) s.flags = f) :
    exec i s = .next { afterOperand src s with flags := f, pc := nextPc i s } := by
  rw [exec_eq_of_readOperand ho he fun _ _ => rfl, afterOperand_a, afterOperand_flags, hf]
  rfl

/-- The sign of a difference modulo 256, in numbers (R150). -/
theorem byte_sub_msb (r m : Byte) : (r - m).msb = decide (128 ≤ (r.toNat + 256 - m.toNat) % 256) := by
  rw [BitVec.msb_eq_decide, BitVec.toNat_sub, decide_eq_decide]
  omega

/-- The flags of a comparison in numbers (R150): C, Z and N, and the rest as they were. -/
theorem aluCompare_eq (r m : Byte) (f : Flags) : aluCompare r m f = { f with
    c := decide (m.toNat ≤ r.toNat), z := decide (r = m), n := decide (128 ≤ (r.toNat + 256 - m.toNat) % 256) } := by
  rw [aluCompare, byte_sub_msb]
  rfl

theorem byte_getLsbD_six (m : Byte) : m.getLsbD 6 = decide (64 ≤ m.toNat % 128) := by
  rw [BitVec.getLsbD, Nat.testBit_eq_decide_div_mod_eq, decide_eq_decide]
  omega

/-- The flags of the bit test in numbers (R159): Z, V and N, and the rest as they were. -/
theorem aluBit_eq (a m : Byte) (f : Flags) : aluBit a m f = { f with
    z := decide (a &&& m = 0), v := decide (64 ≤ m.toNat % 128), n := decide (128 ≤ m.toNat) } := by
  rw [aluBit, byte_getLsbD_six, byte_getLsbD_seven]
  rfl

/-! ## Counting modulo 256 (R153 to R158) -/

theorem byte_add_one (m : Byte) : m + 1 = BitVec.ofNat 8 (m.toNat + 1) := by
  rw [BitVec.ofNat_add, BitVec.ofNat_toNat, BitVec.setWidth_eq]
  rfl

/-- Modulo 256, one down is 255 up. -/
theorem byte_sub_one (m : Byte) : m - 1 = BitVec.ofNat 8 (m.toNat + 255) := by
  rw [BitVec.ofNat_add, BitVec.ofNat_toNat, BitVec.setWidth_eq, BitVec.sub_eq_add_neg]
  rfl

theorem aluInc_eq (m : Byte) (f : Flags) : aluInc m f =
    (BitVec.ofNat 8 (m.toNat + 1), setZN (BitVec.ofNat 8 (m.toNat + 1)) f) := by
  rw [aluInc, byte_add_one]

theorem aluDec_eq (m : Byte) (f : Flags) : aluDec m f =
    (BitVec.ofNat 8 (m.toNat + 255), setZN (BitVec.ofNat 8 (m.toNat + 255)) f) := by
  rw [aluDec, byte_sub_one]

/-! ## The statements -/

/-- Settles O46: each tests its own register, in every form. -/
theorem comparesSetFlagsOnly : Obligations.ComparesSetFlagsOnly := by
  refine ⟨⟨encodedAs_of_opRows (by decide +kernel), fun i s hm => ?_⟩,
    ⟨encodedAs_of_opRows (by decide +kernel), fun i s hm => ?_⟩,
    ⟨encodedAs_of_opRows (by decide +kernel), fun i s hm => ?_⟩⟩
  · obtain ⟨src, ho, he⟩ := exec_CMP hm
    exact ⟨src, ho, exec_eq_of_testOperand (fun _ => aluCompare s.a) ho (he s) (aluCompare_eq ..)⟩
  · obtain ⟨src, ho, he⟩ := exec_CPX hm
    exact ⟨src, ho, exec_eq_of_testOperand (fun _ => aluCompare s.x) ho (he s) (aluCompare_eq ..)⟩
  · obtain ⟨src, ho, he⟩ := exec_CPY hm
    exact ⟨src, ho, exec_eq_of_testOperand (fun _ => aluCompare s.y) ho (he s) (aluCompare_eq ..)⟩

/-- Settles O47: one load, one step of the ALU, one store; the flags do not ask whether the store is discarded. -/
theorem incDecMemory : Obligations.IncDecMemory := by
  refine ⟨⟨encodedAs_of_opRows (by decide +kernel), fun i s hm => ?_⟩,
    ⟨encodedAs_of_opRows (by decide +kernel), fun i s hm => ?_⟩⟩
  · obtain ⟨m, ho, he⟩ := exec_INC hm
    exact ⟨m, ho, exec_eq_of_modifyMemory ho (he s) (aluInc_eq ..)⟩
  · obtain ⟨m, ho, he⟩ := exec_DEC hm
    exact ⟨m, ho, exec_eq_of_modifyMemory ho (he s) (aluDec_eq ..)⟩

/-- Settles O49: Z from A and the operand, V and N from the operand alone. -/
theorem bitTestsOperand : Obligations.BitTestsOperand := by
  refine ⟨encodedAs_of_opRows (by decide +kernel), fun i s hm => ?_⟩
  obtain ⟨src, ho, he⟩ := exec_BIT hm
  exact ⟨src, ho, exec_eq_of_testOperand aluBit ho (he s) (aluBit_eq ..)⟩

/-- Settles O48: by definition each counts as the ALU does, which in numbers is one up or 255 up. -/
theorem indexRegistersCount : Obligations.IndexRegistersCount := by
  refine ⟨⟨encodedAs_of_opRows (by decide +kernel), fun s => ?_⟩,
    ⟨encodedAs_of_opRows (by decide +kernel), fun s => ?_⟩,
    ⟨encodedAs_of_opRows (by decide +kernel), fun s => ?_⟩,
    ⟨encodedAs_of_opRows (by decide +kernel), fun s => ?_⟩⟩
  · rw [← byte_add_one]
    rfl
  · rw [← byte_add_one]
    rfl
  · rw [← byte_sub_one]
    rfl
  · rw [← byte_sub_one]
    rfl

end Sys2Proof.Machine
end

section
/-! PROOFS. The statements of 44_transfer_stack.md: the transfers between registers, and the accumulator on the stack. -/

namespace Sys2Proof.Machine

variable {i : Instr} {s : State}

/-! ## How a transfer and a pull end (R170 to R174, R177) -/

/-- An instruction of one byte that moved `v` into a register, and sets Z and N from it: no flag but these two changes. -/
theorem exec_eq_of_moved {t : State} {v : Byte} (he : exec i s = .next (advance 1 (t.setFlags (setZN v t.flags)))) :
    exec i s = .next { t with flags := { t.flags with z := decide (v = 0), n := v.msb }, pc := t.pc + 1 } :=
  he

/-! ## The stack byte that one push or one pull addresses (R63) -/

theorem push_eq (v : Byte) (s : State) : push v s = { store (stackSlot s 0) v s with sp := s.sp - 1 } := by
  rw [stackSlot_zero]
  rfl

/-- `SP` has gone up before the read, so a pull reads the byte above the one that `SP` addresses. -/
theorem pulled_eq (s : State) : pulled s = s.mem.read (stackAbove s 1) := rfl

/-! ## The statements -/

/-- Settles O50: each moves one register and ends with Z and N from it; TXS sets `SP` alone. -/
theorem transfersCopyRegisters : Obligations.TransfersCopyRegisters := by
  refine ⟨⟨encodedAs_of_opRows (by decide +kernel), fun s => ?tax⟩,
    ⟨encodedAs_of_opRows (by decide +kernel), fun s => ?tay⟩,
    ⟨encodedAs_of_opRows (by decide +kernel), fun s => ?txa⟩,
    ⟨encodedAs_of_opRows (by decide +kernel), fun s => ?tya⟩,
    ⟨encodedAs_of_opRows (by decide +kernel), fun s => ?tsx⟩,
    ⟨encodedAs_of_opRows (by decide +kernel), fun s => ?txs⟩⟩
  case tax => exact exec_eq_of_moved (t := s.setX s.a) rfl
  case tay => exact exec_eq_of_moved (t := s.setY s.a) rfl
  case txa => exact exec_eq_of_moved (t := s.setA s.x) rfl
  case tya => exact exec_eq_of_moved (t := s.setA s.y) rfl
  case tsx => exact exec_eq_of_moved (t := s.setX s.sp) rfl
  case txs => rfl

/-- Settles O51: PHA is one push of A; PLA is one pull that moves the byte into A. -/
theorem phaPlaMoveAccumulator : Obligations.PhaPlaMoveAccumulator := by
  refine ⟨⟨encodedAs_of_opRows (by decide +kernel), fun s => ?pha⟩,
    ⟨encodedAs_of_opRows (by decide +kernel), fun s => ?pla⟩⟩
  case pha =>
    have hexec : exec .pha s = .next (advance 1 (push s.a s)) := rfl
    rw [hexec, push_eq]
    rfl
  case pla =>
    rw [← pulled_eq]
    exact exec_eq_of_moved (t := (afterPull s).setA (pulled s)) rfl

end Sys2Proof.Machine
end

section
/-! PROOFS. The statements of 45_control.md: jumps, subroutines, the trap with its return, and branches. -/

namespace Sys2Proof.Machine

variable {i : Instr} {s u : State} {a : Addr}

/-! ## A word and its two bytes (R52), and the pointer of JMP indirect (R191) -/

theorem lo_toNat (w : Addr) : (lo w).toNat = w.toNat % 256 := by simp [lo]

theorem hi_toNat (w : Addr) : (hi w).toNat = w.toNat / 256 := by
  have hw := w.isLt
  rw [hi, BitVec.extractLsb'_toNat, Nat.shiftRight_eq_div_pow]
  omega

theorem pair_hi_lo (w : Addr) : pair (hi w) (lo w) = w := by
  refine BitVec.eq_of_toNat_eq ?_
  rw [pair_toNat, hi_toNat, lo_toNat]
  omega

/-- The two masks take the high byte of one word and the low byte of the other. -/
theorem masked_or_eq_pair (v w : Addr) : (v &&& 0xFF00) ||| (w &&& 0x00FF) = pair (hi v) (lo w) := by
  have hhigh : ∀ k < 16, (0xFF00 : Addr).getLsbD k = decide (8 ≤ k) := by decide
  have hlow : ∀ k < 16, (0x00FF : Addr).getLsbD k = decide (k < 8) := by decide
  refine BitVec.eq_of_getLsbD_eq fun k hk => ?_
  rw [BitVec.getLsbD_or, BitVec.getLsbD_and, BitVec.getLsbD_and, hhigh k hk, hlow k hk, pair, BitVec.getLsbD_append,
    lo, hi, BitVec.getLsbD_extractLsb', BitVec.getLsbD_extractLsb']
  by_cases h : k < 8
  · simp [h]
  · have hhi : k - 8 < 8 ∧ 8 + (k - 8) = k := by omega
    simp [h, hhi, Nat.le_of_not_lt h]

/-- Where the high byte of the target is read, in numbers. -/
theorem pointerHigh_eq (cfg : Config) (p : Addr) : pointerHigh cfg p =
    if cfg.jmpIndPageWrap = true then BitVec.ofNat 16 (p.toNat / 256 * 256 + (p.toNat + 1) % 256)
    else BitVec.ofNat 16 (p.toNat + 1) := by
  have hp := p.isLt
  have hnext : (p + 1).toNat = (p.toNat + 1) % 65536 := BitVec.toNat_add p 1
  unfold pointerHigh
  split <;> refine BitVec.eq_of_toNat_eq ?_
  · rw [masked_or_eq_pair, pair_toNat, hi_toNat, lo_toNat, hnext, BitVec.toNat_ofNat]
    omega
  · rw [hnext, BitVec.toNat_ofNat]

/-! ## The stack bytes of several pushes and pulls, counted from the `SP` of one state (R63) -/

theorem stackAddr_injective : Function.Injective stackAddr := by
  intro p q h
  have hnat := congrArg BitVec.toNat h
  rw [stackAddr_toNat, stackAddr_toNat] at hnat
  exact BitVec.eq_of_toNat_eq (by omega)

theorem stackSlot_inj (s : State) (j k : Nat) : stackSlot s j = stackSlot s k ↔ BitVec.ofNat 8 j = BitVec.ofNat 8 k := by
  rw [stackSlot_eq, stackSlot_eq, stackAddr_injective.eq_iff, sub_right_inj]

theorem stackSlots_nodup (s : State) : [stackSlot s 0, stackSlot s 1, stackSlot s 2].Nodup := by
  simp [stackSlot_inj]

theorem stackSlot_lt_romBoundary (h : 0x01FF < s.cfg.romBoundary.val) (k : Nat) :
    (stackSlot s k).toNat < s.cfg.romBoundary.val := by
  rw [stackSlot_eq, stackAddr_toNat]
  omega

/-- Of the bytes that `k + j` pushes wrote, the `j`-th pull reads the one that the first `k` of them left `SP` at. -/
theorem stackAbove_eq_stackSlot {j k : Nat} (h : u.sp = s.sp - BitVec.ofNat 8 (k + j)) :
    stackAbove u j = stackSlot s k := by
  rw [stackAbove, stackSlot, h, BitVec.ofNat_add, ← sub_sub, sub_add_cancel]

/-- A push after `k` others, with its stack byte counted from where `SP` was before them. -/
theorem push_eq_of_sp {k : Nat} (v : Byte) (h : u.sp = s.sp - BitVec.ofNat 8 k) :
    push v u = { store (stackSlot s k) v u with sp := s.sp - BitVec.ofNat 8 (k + 1) } := by
  rw [push, stackSlot_eq, h, BitVec.ofNat_add, ← sub_sub]
  rfl

/-- High byte first: the low byte lands one below, and `SP` goes down by two (R52). -/
theorem pushWord_eq (w : Addr) (s : State) : pushWord w s =
    { store (stackSlot s 1) (lo w) (store (stackSlot s 0) (hi w) s) with sp := s.sp - 2 } := by
  rw [pushWord, push_eq_of_sp (s := s) (k := 1) (lo w) rfl, push_eq]
  rfl

theorem pulledWord_eq (s : State) : pulledWord s = pair (s.mem.read (stackAbove s 2)) (s.mem.read (stackAbove s 1)) := by
  rw [pulledWord, pulled, afterPull_sp, add_assoc]
  rfl

/-- A stored byte reads as stored, where no later store is to it and the ROM boundary does not discard it (R56). -/
theorem storeAll_read_stored {stores : List (Addr × Byte)} {v : Byte} (hnodup : (stores.map Prod.fst).Nodup)
    (hmem : (a, v) ∈ stores) (hrom : a.toNat < s.cfg.romBoundary.val) : (storeAll stores s).mem.read a = v := by
  induction stores generalizing s with
  | nil => cases hmem
  | cons st stores ih =>
    obtain ⟨hlater, hnodup⟩ := List.nodup_cons.mp hnodup
    rcases List.mem_cons.mp hmem with rfl | hmem
    · exact (storeAll_read stores _ (.inl hlater)).trans ((store_read ..).trans (if_pos ⟨rfl, hrom⟩))
    · exact ih hnodup hmem hrom

/-- The two bytes that a pushed word leaves on the stack, high byte first (R52). -/
theorem pushWord_read_stackSlot (w : Addr) (hrom : 0x01FF < s.cfg.romBoundary.val) :
    (pushWord w s).mem.read (stackSlot s 0) = hi w ∧ (pushWord w s).mem.read (stackSlot s 1) = lo w := by
  have hnodup : [stackSlot s 0, stackSlot s 1].Nodup := (stackSlots_nodup s).sublist (by simp)
  have hbelow := stackSlot_lt_romBoundary hrom
  rw [pushWord_mem]
  exact ⟨storeAll_read_stored hnodup (by simp) (hbelow 0), storeAll_read_stored hnodup (by simp) (hbelow 1)⟩

/-! ## The trap and its return (R195, R196) -/

/-- The state that the trap enters: three stores, `SP` down by three, `I` set, and `PC` from the vector as the stores left it. -/
theorem enterTrap_eq (ret : Addr) (s : State) :
    let u := store (stackSlot s 2) (pushedStatus s.flags) (store (stackSlot s 1) (lo ret) (store (stackSlot s 0) (hi ret) s))
    enterTrap ret s = { u with
      sp := s.sp - 3, flags := { s.flags with i := true }, pc := pair (u.mem.read 0xFFFF) (u.mem.read 0xFFFE) } := by
  have hpush := push_eq_of_sp (s := s) (k := 2) (pushedStatus s.flags) (congrArg State.sp (pushWord_eq ret s))
  rw [enterTrap, hpush, pushWord_eq]
  rfl

/-- The three bytes that the trap leaves on the stack. -/
theorem enterTrap_read_stackSlot (ret : Addr) (hrom : 0x01FF < s.cfg.romBoundary.val) :
    (enterTrap ret s).mem.read (stackSlot s 0) = hi ret ∧ (enterTrap ret s).mem.read (stackSlot s 1) = lo ret ∧
    (enterTrap ret s).mem.read (stackSlot s 2) = pushedStatus s.flags := by
  have hnodup := stackSlots_nodup s
  have hbelow := stackSlot_lt_romBoundary hrom
  rw [enterTrap_stores]
  exact ⟨storeAll_read_stored hnodup (by simp) (hbelow 0), storeAll_read_stored hnodup (by simp) (hbelow 1),
    storeAll_read_stored hnodup (by simp) (hbelow 2)⟩

/-- The state after the return: the status byte is the first above `SP`, and `PC` the word above it. -/
theorem returnFromTrap_eq_stackAbove (s : State) : returnFromTrap s = { s with
    sp := s.sp + 3, pc := pair (s.mem.read (stackAbove s 3)) (s.mem.read (stackAbove s 2)),
    flags := unpackRti (s.mem.read (stackAbove s 1)) s.flags } := by
  have hthird : s.sp + 1 + 1 + 1 = s.sp + 3 := by rw [add_assoc, add_assoc]; rfl
  have hword : pulledWord (afterPull s) = pair (s.mem.read (stackAbove s 3)) (s.mem.read (stackAbove s 2)) := by
    rw [pulledWord, pulled, pulled, afterPull_sp, afterPull_sp, hthird, add_assoc]
    rfl
  rw [returnFromTrap_eq, hthird, hword, pulled_eq]

/-- The bits of the pushed status that a return from the trap reads (R28). -/
theorem pushedStatus_getLsbD (f : Flags) :
    (pushedStatus f).getLsbD 7 = f.n ∧ (pushedStatus f).getLsbD 6 = f.v ∧ (pushedStatus f).getLsbD 3 = f.d ∧
    (pushedStatus f).getLsbD 2 = f.i ∧ (pushedStatus f).getLsbD 1 = f.z ∧ (pushedStatus f).getLsbD 0 = f.c := by
  obtain ⟨c, z, i, d, b, v, n⟩ := f
  revert c z i d b v n
  decide

/-- Unpacking the pushed status gives back every flag but `B`, which stays as it is (R29). -/
theorem unpackRti_pushedStatus (f g : Flags) : unpackRti (pushedStatus f) g = { f with b := g.b } := by
  obtain ⟨hn, hv, hd, hi, hz, hc⟩ := pushedStatus_getLsbD f
  rw [unpackRti, hn, hv, hd, hi, hz, hc]

/-! ## The common branch rule (R205) -/

/-- Where a branch goes, with its displacement as a signed number. -/
theorem branchTarget_toNat (pc : Addr) (d : Byte) :
    ((pc + 2 + sext d).toNat : Int) = (pc.toNat + 2 + d.toInt) % 65536 := by
  have htwo : (2 : Addr).toNat = 2 := rfl
  have hd : ((sext d).toNat : Int) = d.toInt % 65536 := by
    rw [sext, BitVec.signExtend, BitVec.toNat_ofInt]
    exact Int.toNat_of_nonneg (Int.emod_nonneg _ (by decide))
  rw [BitVec.toNat_add, BitVec.toNat_add, htwo]
  omega

/-- A branch moves `PC` alone: to its target if its condition holds, else past its two bytes. -/
theorem exec_of_branch {d : Byte} {cond : Bool} {P : Prop} (he : exec i s = branch cond d s) (hP : P ↔ cond = true) :
    ∃ t, exec i s = .next t ∧ t = { s with pc := t.pc } ∧
      (P → (t.pc.toNat : Int) = (s.pc.toNat + 2 + d.toInt) % 65536) ∧
      (¬ P → (t.pc.toNat : Int) = (s.pc.toNat + 2) % 65536) := by
  cases cond with
  | true => exact ⟨_, he, rfl, fun _ => branchTarget_toNat s.pc d, fun hnot => absurd (hP.mpr rfl) hnot⟩
  | false => exact ⟨_, he, rfl, fun h => absurd (hP.mp h) Bool.false_ne_true, fun _ =>
      congrArg Nat.cast (BitVec.toNat_add s.pc 2)⟩

/-! ## The statements -/

/-- Settles O54: JSR is two pushes and RTS two pulls. -/
theorem jsrPushesRtsReturns : Obligations.JsrPushesRtsReturns := by
  refine ⟨⟨encodedAs_of_opRows (by decide +kernel), fun w s => ?jsr⟩,
    ⟨encodedAs_of_opRows (by decide +kernel), fun s => ?rts⟩⟩
  case jsr =>
    have hexec : exec (.jsr w) s = .next ((pushWord (s.pc + 2) s).setPc w) := rfl
    rw [hexec, pushWord_eq]
    rfl
  case rts =>
    have hexec : exec .rts s = .next { s with sp := s.sp + 1 + 1, pc := pulledWord s + 1 } := rfl
    rw [hexec, pulledWord_eq, add_assoc]
    rfl

/-- Settles O56: BRK enters the trap with the address after its ignored byte. -/
theorem brkEntersTrap : Obligations.BrkEntersTrap :=
  ⟨encodedAs_of_opRows (by decide +kernel), fun _ s => congrArg Host.Outcome.next (enterTrap_eq (s.pc + 2) s)⟩

/-- Settles O57: RTI is three pulls, the first of them into the flags. -/
theorem rtiLeavesTrap : Obligations.RtiLeavesTrap :=
  ⟨encodedAs_of_opRows (by decide +kernel), fun s => congrArg Host.Outcome.next (returnFromTrap_eq_stackAbove s)⟩

/-- Settles O55: the two pulls read the two bytes that the JSR stored, its address plus 2. -/
theorem rtsReturnsAfterJsr : Obligations.RtsReturnsAfterJsr := by
  intro s t u w hrom hjsr hsp hhigh hlow
  obtain rfl : (pushWord (s.pc + 2) s).setPc w = t := Host.Outcome.next.inj hjsr
  obtain ⟨hpushedHigh, hpushedLow⟩ := pushWord_read_stackSlot (s.pc + 2) hrom
  have hu : u.sp = s.sp - 2 := hsp.trans (congrArg State.sp (pushWord_eq (s.pc + 2) s))
  have hword : pulledWord u = s.pc + 2 := by
    rw [pulledWord_eq, stackAbove_eq_stackSlot (k := 0) hu, stackAbove_eq_stackSlot (k := 1) hu, hhigh, hlow,
      State.setPc_mem, hpushedHigh, hpushedLow, pair_hi_lo]
  refine ⟨(afterPullWord u).setPc (pulledWord u + 1), rfl, ?_, ?_⟩
  · rw [State.setPc_pc, hword, add_assoc]
    rfl
  · rw [State.setPc_sp, afterPullWord_sp, hu, add_assoc]
    exact sub_add_cancel _ _

/-- Settles O58: the three pulls read the three bytes that the BRK stored, its address plus 2 and its flags. -/
theorem rtiReturnsAfterBrk : Obligations.RtiReturnsAfterBrk := by
  intro s t u pad hrom hbrk hsp hstack hb
  obtain rfl : enterTrap (s.pc + 2) s = t := Host.Outcome.next.inj hbrk
  obtain ⟨hhigh, hlow, hstatus⟩ := enterTrap_read_stackSlot (s.pc + 2) hrom
  rw [← hstack _ (by decide)] at hhigh hlow hstatus
  have hu : u.sp = s.sp - 3 := hsp.trans (congrArg State.sp (enterTrap_eq (s.pc + 2) s))
  refine ⟨returnFromTrap u, rfl, ?_⟩
  rw [returnFromTrap_eq_stackAbove, stackAbove_eq_stackSlot (k := 0) hu, stackAbove_eq_stackSlot (k := 1) hu,
    stackAbove_eq_stackSlot (k := 2) hu, hhigh, hlow, hstatus, pair_hi_lo, unpackRti_pushedStatus, hb, enterTrap_flags, hu]
  exact ⟨rfl, sub_add_cancel _ _, rfl⟩

/-- Settles O59: each is the common branch rule on its own flag. -/
theorem branchesTestOneFlag : Obligations.BranchesTestOneFlag := by
  have hclear (b : Bool) : b = false ↔ (!b) = true := by simp
  exact ⟨⟨encodedAs_of_opRows (by decide +kernel), fun d s => exec_of_branch rfl (hclear s.flags.c)⟩,
    ⟨encodedAs_of_opRows (by decide +kernel), fun d s => exec_of_branch rfl Iff.rfl⟩,
    ⟨encodedAs_of_opRows (by decide +kernel), fun d s => exec_of_branch rfl Iff.rfl⟩,
    ⟨encodedAs_of_opRows (by decide +kernel), fun d s => exec_of_branch rfl Iff.rfl⟩,
    ⟨encodedAs_of_opRows (by decide +kernel), fun d s => exec_of_branch rfl (hclear s.flags.z)⟩,
    ⟨encodedAs_of_opRows (by decide +kernel), fun d s => exec_of_branch rfl (hclear s.flags.n)⟩,
    ⟨encodedAs_of_opRows (by decide +kernel), fun d s => exec_of_branch rfl (hclear s.flags.v)⟩,
    ⟨encodedAs_of_opRows (by decide +kernel), fun d s => exec_of_branch rfl Iff.rfl⟩⟩

/-- Settles O53: JMP indirect jumps or stops as its pointer bytes say, the second of them where `pointerHigh` puts it. -/
theorem jmpSetsPc : Obligations.JmpSetsPc := by
  refine ⟨encodedAs_of_opRows (by decide +kernel), fun w s => rfl, fun p s => ?_⟩
  have hexec : exec (.jmpInd p) s = jumpIndirect p s := rfl
  rw [hexec, ← pointerHigh_eq]
  obtain ⟨hp, hp1, hj⟩ | ⟨hbad, hj⟩ := jumpIndirect_cases p s
  · refine ⟨fun _ _ => hj, fun hbad => ?_⟩
    simp [hp, hp1] at hbad
  · refine ⟨fun hp hp1 => ?_, fun _ => hj⟩
    simp [hp, hp1] at hbad

end Sys2Proof.Machine
end

section
/-! PROOFS. The statement of 46_flag_nop.md: the instructions that write one flag, and NOP. -/

namespace Sys2Proof.Machine

variable {i j : Instr}

/-! ## The encoding of a mnemonic that is one instruction of one byte (R80, R81) -/

/-- The round trip leaves no two instructions the same bytes. -/
theorem encode_injective : Function.Injective encode := by
  intro i j h
  have hi := Laws.RoundTrip.decode_encode i []
  rw [h, Laws.RoundTrip.decode_encode j []] at hi
  cases hi
  rfl

theorem encode_of_mode_imp (h : i.operand.mode = .imp) : encode i = [opcode i] := by
  have hlen := encode_length i
  rw [h] at hlen
  exact congrArg (opcode i :: ·) (List.eq_nil_of_length_eq_zero (Nat.succ.inj hlen))

/-- The instruction of a mnemonic without operand is the one of its opcode byte in the implied format. -/
theorem encodedAs_of_only {mn : Mnemonic} (hj : j.mnemonic = mn) (hmode : j.operand.mode = .imp)
    (honly : ∀ {i : Instr}, i.mnemonic = mn → i = j) : EncodedAs mn [(opcode j, .imp)] := by
  intro i
  rw [List.mem_singleton, Prod.mk.injEq]
  constructor
  · intro hi
    cases honly hi
    exact ⟨rfl, hmode⟩
  · rintro ⟨hop, hi⟩
    have hij : i = j := encode_injective (by rw [encode_of_mode_imp hi, encode_of_mode_imp hmode, hop])
    rw [hij, hj]

/-! ## How a flag instruction ends (R220 to R226) -/

/-- An instruction of one byte that sets the flags to `f`: nothing but these and `PC` changes. -/
theorem exec_eq_of_setFlags {s : State} {f : Flags} (he : exec i s = .next (advance 1 (s.setFlags f))) :
    exec i s = .next { s with flags := f, pc := s.pc + 1 } :=
  he

/-! ## The statement -/

/-- Settles O60: seven of them set the flags with one field changed; NOP is the common step alone. -/
theorem flagInstructionsSetOneFlag : Obligations.FlagInstructionsSetOneFlag := by
  refine ⟨⟨encodedAs_of_only (j := .sec) rfl rfl only_SEC, fun s => ?sec⟩,
    ⟨encodedAs_of_only (j := .clc) rfl rfl only_CLC, fun s => ?clc⟩,
    ⟨encodedAs_of_only (j := .sed) rfl rfl only_SED, fun s => ?sed⟩,
    ⟨encodedAs_of_only (j := .cld) rfl rfl only_CLD, fun s => ?cld⟩,
    ⟨encodedAs_of_only (j := .sei) rfl rfl only_SEI, fun s => ?sei⟩,
    ⟨encodedAs_of_only (j := .cli) rfl rfl only_CLI, fun s => ?cli⟩,
    ⟨encodedAs_of_only (j := .clv) rfl rfl only_CLV, fun s => ?clv⟩,
    ⟨encodedAs_of_only (j := .nop) rfl rfl only_NOP, fun s => ?nop⟩⟩
  case sec => exact exec_eq_of_setFlags (f := { s.flags with c := true }) rfl
  case clc => exact exec_eq_of_setFlags (f := { s.flags with c := false }) rfl
  case sed => exact exec_eq_of_setFlags (f := { s.flags with d := true }) rfl
  case cld => exact exec_eq_of_setFlags (f := { s.flags with d := false }) rfl
  case sei => exact exec_eq_of_setFlags (f := { s.flags with i := true }) rfl
  case cli => exact exec_eq_of_setFlags (f := { s.flags with i := false }) rfl
  case clv => exact exec_eq_of_setFlags (f := { s.flags with v := false }) rfl
  case nop => rfl

end Sys2Proof.Machine
end

section
/-! PROOFS. The outcomes of a step, check by check in the order of 60_exceptions.md R249, and what the host is told of them (R240). -/

namespace Sys2Proof.Machine

variable {i : Instr} {s t : State}

/-! ## What an instruction can answer (R245, R251) -/

/-- An instruction completes or ends in `Unmodelled`; it never ends in another way. -/
theorem exec_next_or_unmodelled (i : Instr) (s : State) :
    (∃ t, exec i s = .next t) ∨ ∃ a, exec i s = .fault (.unmodelled .deviceFetch a) := by
  rcases exec_next_or_jumpIndirect i s with hnext | ⟨p, -, hjump⟩
  · exact .inl hnext
  · rcases jumpIndirect_cases p s with ⟨-, -, hj⟩ | ⟨-, hj⟩
    · exact .inl ⟨_, hjump.trans hj⟩
    · exact .inr ⟨_, hjump.trans hj⟩

theorem step_of_fetch_error {f : Fault} (hfetch : fetchInstr s = .error f) : step s = .fault f :=
  (step_fault_iff s f).mpr (.inl hfetch)

theorem step_of_exec_next (hfetch : fetchInstr s = .ok i) (h : exec i s = .next t) : step s = .next (retire t) :=
  (step_next_iff s _).mpr ⟨i, t, hfetch, h, rfl⟩

theorem step_of_exec_fault {f : Fault} (hfetch : fetchInstr s = .ok i) (h : exec i s = .fault f) : step s = .fault f :=
  (step_fault_iff s f).mpr (.inr ⟨i, hfetch, h⟩)

/-- A step completes or stops with a fault; none is refused. -/
theorem step_next_or_fault (s : State) : (∃ t, step s = .next t) ∨ ∃ f, step s = .fault f := by
  cases hfetch : fetchInstr s with
  | error f => exact .inr ⟨f, step_of_fetch_error hfetch⟩
  | ok i =>
    rcases exec_next_or_unmodelled i s with ⟨t, ht⟩ | ⟨a, ha⟩
    · exact .inl ⟨_, step_of_exec_next hfetch ht⟩
    · exact .inr ⟨_, step_of_exec_fault hfetch ha⟩

/-! ## The checks of the fetch (R249) -/

theorem fetchInstr_pc_intercepted (hpc : intercepted s.cfg s.pc = true) :
    fetchInstr s = .error (.unmodelled .deviceFetch s.pc) :=
  if_pos hpc

/-- Past the checks on the opcode, the first intercepted operand byte stops the fetch. -/
theorem fetchInstr_operand_intercepted {len : Nat} {b : Addr} (hpc : intercepted s.cfg s.pc = false)
    (hlen : implementedLength s.cfg (s.mem.read s.pc) = some len)
    (hfirst : (operandAddrs s.pc len).find? (intercepted s.cfg) = some b) :
    fetchInstr s = .error (.unmodelled .deviceFetch b) := by
  simp [fetchInstr, hpc, hlen, hfirst]

/-- The second byte of an instruction is the first that is checked after the opcode. -/
theorem find?_operandAddrs_second {cfg : Config} {pc : Addr} {len : Nat} (hlen : 1 < len)
    (h : intercepted cfg (pc + 1) = true) : (operandAddrs pc len).find? (intercepted cfg) = some (pc + 1) := by
  obtain ⟨n, rfl⟩ := Nat.exists_eq_add_of_lt hlen
  have haddrs : operandAddrs pc (1 + n + 1) = (pc + 1) :: (List.range n).map fun k => pc + BitVec.ofNat 16 (k + 1 + 1) := by
    simp [operandAddrs, Nat.add_comm 1 n, List.range_succ_eq_map]
  rw [haddrs, List.find?_cons_of_pos h]

theorem find?_operandAddrs_third {cfg : Config} {pc : Addr} (h1 : intercepted cfg (pc + 1) = false)
    (h2 : intercepted cfg (pc + 2) = true) : (operandAddrs pc 3).find? (intercepted cfg) = some (pc + 2) := by
  have haddrs : operandAddrs pc 3 = [pc + 1, pc + 2] := rfl
  rw [haddrs, List.find?_cons_of_neg (Bool.eq_false_iff.mp h1), List.find?_cons_of_pos h2]

/-- No check of the fetch is on the range of an address (R242). -/
theorem fetchInstr_ne_addressOutOfRange (s : State) (a : Nat) : fetchInstr s ≠ .error (.addressOutOfRange a) := by
  unfold fetchInstr
  split
  · simp
  · dsimp only
    split
    · simp
    · split
      · simp
      · split <;> simp

theorem step_ne_addressOutOfRange (s : State) (a : Nat) : step s ≠ .fault (.addressOutOfRange a) := by
  intro h
  rcases (step_fault_iff s _).mp h with hfetch | ⟨i, -, hexec⟩
  · exact fetchInstr_ne_addressOutOfRange s a hfetch
  · rcases exec_next_or_unmodelled i s with ⟨t, ht⟩ | ⟨b, hb⟩
    · cases ht.symm.trans hexec
    · cases hb.symm.trans hexec

/-! ## What the opcode byte says of the instruction (R85, R88) -/

/-- An implemented opcode byte has the length of any instruction with it. -/
theorem implementedLength_of_opcode {op : Byte} {cfg : Config} (hop : opcode i = op) (himpl : op ∈ cfg.implemented) :
    implementedLength cfg op = some i.operand.mode.length := by
  subst hop
  rw [implementedLength, if_pos (List.contains_iff_mem.mpr himpl), opLength_opcode, encode_length]

theorem eq_jmpInd_of_operand {p : Addr} (h : i.operand = .indirect p) : i = .jmpInd p := by
  cases i with
  | jmpInd w => cases h; rfl
  | _ => cases h

theorem eq_jmpInd_of_mode (h : i.operand.mode = .ind) : ∃ p, i = .jmpInd p := by
  cases ho : i.operand with
  | indirect p => exact ⟨p, eq_jmpInd_of_operand ho⟩
  | memory m => cases m <;> simp [ho, Operand.mode, MemOperand.mode] at h
  | _ => simp [ho, Operand.mode] at h

/-- The opcode byte 0x6C gives the length, and the three bytes are those of the JMP indirect through their word. -/
theorem eq_jmpInd_of_opcode (h : opcode i = 0x6C) : ∃ p, i = .jmpInd p := by
  have hrow : opLength 0x6C = some 3 := rfl
  have hlen : (encode i).length = 3 := Option.some.inj (((opLength_opcode i).symm.trans (congrArg opLength h)).trans hrow)
  obtain ⟨op, low, high, hbytes⟩ := List.length_eq_three.mp hlen
  have hop : op = 0x6C := (List.cons.inj hbytes).1.symm.trans h
  have hjmp : encode (.jmpInd (pair high low)) = [0x6C, lo (pair high low), hi (pair high low)] := rfl
  exact ⟨pair high low, encode_injective (by rw [hjmp, hbytes, hop, lo_pair, hi_pair])⟩

/-- JMP indirect has the one opcode byte of the format `ind`. -/
theorem mode_ind_iff_opcode (i : Instr) : i.operand.mode = .ind ↔ opcode i = 0x6C := by
  constructor
  · intro h
    obtain ⟨p, rfl⟩ := eq_jmpInd_of_mode h
    rfl
  · intro h
    obtain ⟨p, rfl⟩ := eq_jmpInd_of_opcode h
    rfl

/-- An instruction of another format than `ind` completes (R94). -/
theorem exec_next_of_mode_ne_ind (h : i.operand.mode ≠ .ind) (s : State) : ∃ t, exec i s = .next t := by
  rcases exec_next_or_jumpIndirect i s with hnext | ⟨p, ho, -⟩
  · exact hnext
  · exact absurd (congrArg Operand.mode ho) h

theorem opLength_of_implementedLength {cfg : Config} {op : Byte} {len : Nat} (h : implementedLength cfg op = some len) :
    opLength op = some len := by
  unfold implementedLength at h
  split_ifs at h
  exact h

/-- Past all checks the fetch gives an instruction whose bytes are those at `PC`. -/
theorem fetchInstr_of_plain {len : Nat} (hlen : implementedLength s.cfg (s.mem.read s.pc) = some len) (hpos : 1 ≤ len)
    (hplain : ∀ k, k < len → intercepted s.cfg (s.pc + BitVec.ofNat 16 k) = false) :
    ∃ j, fetchInstr s = .ok j ∧ encode j = fetchBytes s.mem s.pc len := by
  obtain ⟨j, hdec⟩ := decode_fetchBytes (opLength_of_implementedLength hlen)
  have hops : ∀ b ∈ operandAddrs s.pc len, intercepted s.cfg b = false := by
    simp only [operandAddrs, List.mem_map, List.mem_range]
    rintro _ ⟨k, hk, rfl⟩
    exact hplain (k + 1) (by omega)
  have hbytes : encode j ++ [] = fetchBytes s.mem s.pc len := (decode_ok hdec).1
  exact ⟨j, fetchInstr_eq_ok (by simpa using hplain 0 hpos) hlen hops hdec, by simpa using hbytes⟩

/-- The pointer of a JMP indirect is the word after its opcode byte (R82). -/
theorem pointer_of_encode {m : Memory} {pc p : Addr} (h : encode (.jmpInd p) = fetchBytes m pc 3) :
    p = pair (m.read (pc + 2)) (m.read (pc + 1)) := by
  have hbytes : [0x6C, lo p, hi p] = [m.read pc, m.read (pc + 1), m.read (pc + 2)] := h
  simp only [List.cons.injEq] at hbytes
  obtain ⟨-, hlow, hhigh, -⟩ := hbytes
  rw [← hlow, ← hhigh, pair_hi_lo]

/-! ## What the host is told (R240, R246) -/

theorem stepApi_of_next (verbose : Bool) (h : step s = .next t) : stepApi verbose s = (completed t, t) := by
  rw [stepApi, h]

theorem stepApi_of_fault (verbose : Bool) {f : Fault} (h : step s = .fault f) : stepApi verbose s = (f.outcome, s) := by
  rw [stepApi, h]

theorem completed_cases (t : State) : completed t = .continued ∨ completed t = .breakpoint := by
  unfold completed
  split_ifs
  · exact .inr rfl
  · exact .inl rfl

theorem outcome_ne_refused (f : Fault) (r : Refusal) : f.outcome ≠ .refused r := by
  cases f <;> simp [Fault.outcome]

/-- `BREAKPOINT` is compared with the count that the completed step leaves. -/
theorem completed_of_step (h : step s = .next t) :
    completed t = if s.breakpoint = some (s.icount + 1) then .breakpoint else .continued := by
  obtain ⟨hicount, hbreakpoint, -, -⟩ := hostStateUntouchedByInstructions.2 s t h
  rw [completed, hicount, hbreakpoint]

/-! ## The invariant under the host (R259) -/

theorem hostAct_inv (act : HostAction) (h : s.Inv) : (hostAct act s).Inv := by
  obtain ⟨hmem, hcfg⟩ := h
  cases act with
  | injectKey code => exact ⟨memory_wf_write _ _ _ hmem, hcfg⟩
  | clearDirty | setBreakpoint bp | reset => exact ⟨hmem, hcfg⟩

/-- A step as the host runs it keeps the invariant, whatever its outcome. -/
theorem stepApi_inv (verbose : Bool) (h : s.Inv) : (stepApi verbose s).2.Inv := by
  rcases step_next_or_fault s with ⟨t, ht⟩ | ⟨f, hf⟩
  · rw [stepApi_of_next verbose ht]
    exact stepKeepsInvariant s t h ht
  · rw [stepApi_of_fault verbose hf]
    exact h

theorem runSteps_inv (n : Nat) (h : s.Inv) : (runSteps n s).2.Inv := by
  induction n generalizing s with
  | zero => exact h
  | succ n ih =>
    have hstep := stepApi_inv false h
    unfold runSteps
    split
    · rename_i t ht
      rw [ht] at hstep
      exact ih hstep
    · exact hstep

end Sys2Proof.Machine
end

section
/-! PROOFS. What the interrupt-disable flag decides (60_exceptions.md R248): nothing but a bit of the pushed status byte. -/

namespace Sys2Proof.Machine

variable {i : Instr} {s t : State} {j : Bool → Bool}

/-! ## Instructions that carry I through (R248) -/

theorem withI_eq_mapDI (v : Bool) (s : State) : withI v s = mapDI id (fun _ => v) s := rfl

/-- ADC reads D, which is kept here, and not I (R120). -/
theorem aluAdc_mapDI (rule : BcdRule) (a m : Byte) (f : Flags) :
    aluAdc rule a m (f.mapDI id j) = ((aluAdc rule a m f).1, (aluAdc rule a m f).2.mapDI id j) := by
  obtain ⟨c, z, i, d, b, v, n⟩ := f
  cases d
  · rfl
  · rfl

theorem aluSbc_mapDI (rule : BcdRule) (a m : Byte) (f : Flags) :
    aluSbc rule a m (f.mapDI id j) = ((aluSbc rule a m f).1, (aluSbc rule a m f).2.mapDI id j) := by
  obtain ⟨c, z, i, d, b, v, n⟩ := f
  cases d
  · rfl
  · rfl

/-- An instruction that combines A with its operand carries I through, if its ALU function does. -/
theorem accumulate_mapDI {src : Source} {alu : Config → Byte → Byte → Flags → Byte × Flags}
    (halu : ∀ cfg a m f, alu cfg a m (f.mapDI id j) = ((alu cfg a m f).1, (alu cfg a m f).2.mapDI id j))
    (h : readOperand src s (fun m u => (u.setA (alu u.cfg u.a m u.flags).1).setFlags (alu u.cfg u.a m u.flags).2) = .next t) :
    readOperand src (mapDI id j s) (fun m u => (u.setA (alu u.cfg u.a m u.flags).1).setFlags (alu u.cfg u.a m u.flags).2) =
      .next (mapDI id j t) := by
  refine readOperand_mapDI h fun m u => ?_
  have hu := halu u.cfg u.a m u.flags
  rw [mapDI_flags]
  exact congrArg (fun r : Byte × Flags => (u.setA r.1).setFlags r.2) hu

/-- An instruction that neither writes nor pushes I carries it through and does the same beside. -/
theorem exec_withI (hn : i.mnemonic ∉ [Mnemonic.SEI, .CLI, .BRK, .PLP, .RTI, .PHP]) (v : Bool) (h : exec i s = .next t) :
    exec i (withI v s) = .next (withI v t) := by
  rw [withI_eq_mapDI, withI_eq_mapDI]
  by_cases hd : i.mnemonic ∈ [Mnemonic.ADC, .SBC, .SED, .CLD]
  · simp only [List.mem_cons, List.not_mem_nil, or_false] at hd
    obtain hm | hm | hm | hm := hd
    · obtain ⟨src, -, he⟩ := exec_ADC hm
      exact (he _).trans (accumulate_mapDI (fun cfg => aluAdc_mapDI cfg.bcdAdc) ((he s).symm.trans h))
    · obtain ⟨src, -, he⟩ := exec_SBC hm
      exact (he _).trans (accumulate_mapDI (fun cfg => aluSbc_mapDI cfg.bcdSbc) ((he s).symm.trans h))
    · cases only_SED hm; cases h; rfl
    · cases only_CLD hm; cases h; rfl
  · exact exec_mapDI (by simp_all) h

/-- Whether an instruction stops, and with which fault, does not depend on I. -/
theorem exec_withI_fault (v : Bool) {f : Fault} (h : exec i s = .fault f) : exec i (withI v s) = .fault f := by
  rcases exec_next_or_jumpIndirect i s with ⟨t, ht⟩ | ⟨p, ho, hjump⟩
  · cases ht.symm.trans h
  · obtain rfl := eq_jmpInd_of_operand ho
    rcases jumpIndirect_cases p s with ⟨-, -, hj⟩ | ⟨hbad, hj⟩
    · cases hj.symm.trans h
    · rcases jumpIndirect_cases p (withI v s) with ⟨hp, hp1, -⟩ | ⟨-, hstop⟩
      · have hplain : intercepted s.cfg p = false ∧ intercepted s.cfg (pointerHigh s.cfg p) = false := ⟨hp, hp1⟩
        simp [hplain] at hbad
      · exact hstop.trans (hj.symm.trans h)

/-! ## The pushed status byte (R178, R195) -/

/-- A push changes no byte but the one that `SP` addresses before it. -/
theorem push_read_of_ne {a : Addr} (v : Byte) (h : a ≠ stackAddr s.sp) : (push v s).mem.read a = s.mem.read a := by
  rw [push_read, if_neg fun ha => h ha.1]

/-- Taking the trap pushes the status byte last, so every other byte is as the pushed return address left it. -/
theorem enterTrap_read_of_ne {a : Addr} (ret : Addr) (h : a ≠ stackSlot s 2) :
    (enterTrap ret s).mem.read a = (pushWord ret s).mem.read a := by
  rw [enterTrap_mem, push_read_of_ne]
  rwa [pushWord_sp, sub_sub]

/-- The stack page ends below the vector of the trap. -/
theorem ne_stackSlot_of_vector {a : Addr} (k : Nat) (ha : 0xFFFE ≤ a.toNat) : a ≠ stackSlot s k := by
  rintro rfl
  rw [stackSlot_eq, stackAddr_toNat] at ha
  omega

/-- The trap goes where the vector says, which no pushed byte touches. -/
theorem enterTrap_pc_eq (ret : Addr) (s : State) : (enterTrap ret s).pc = (pushWord ret s).mem.read16 brkVector := by
  rw [enterTrap_pc, Memory.read16, Memory.read16, enterTrap_read_of_ne ret (ne_stackSlot_of_vector 2 (by decide)),
    enterTrap_read_of_ne ret (ne_stackSlot_of_vector 2 (by decide))]

/-- BRK with another I: the same trap, but for I itself and the pushed status byte. -/
theorem enterTrap_withI (ret : Addr) (v : Bool) (s : State) :
    let t := enterTrap ret s
    let u := enterTrap ret (withI v s)
    t = { u with flags := t.flags, mem := t.mem } ∧ t.flags = { u.flags with i := t.flags.i } ∧
      ∀ a, a ≠ stackSlot s 2 → t.mem.read a = u.mem.read a := by
  intro t u
  have hpc : t.pc = u.pc := (enterTrap_pc_eq ret s).trans (enterTrap_pc_eq ret (withI v s)).symm
  refine ⟨?_, rfl, fun a ha => ?_⟩
  · exact congrArg (fun pc => { u with flags := t.flags, mem := t.mem, pc := pc }) hpc
  · exact (enterTrap_read_of_ne ret ha).trans (enterTrap_read_of_ne (s := withI v s) ret ha).symm

end Sys2Proof.Machine
end

section
/-! PROOFS. The statements of 60_exceptions.md: the checks of a step, its outcomes, the flag that masks nothing, and the host. -/

namespace Sys2Proof.Machine

/-- Settles O7: check by check. Past the fetch only the format `ind` can stop, and its opcode byte fixes the format. -/
theorem fetchChecksInOrder : Obligations.FetchChecksInOrder := by
  intro s
  refine ⟨fun hpc => step_of_fetch_error (fetchInstr_pc_intercepted hpc),
    fun hpc => ⟨fun hundef => ?opcode, fun i hop himpl => ?_⟩, step_ne_addressOutOfRange s⟩
  case opcode =>
    refine (step_undefinedOpcode_iff hpc).mpr ⟨(implementedLength_eq_none_iff _ _).mpr ?_, rfl, rfl⟩
    by_cases hrow : ∃ i : Instr, opcode i = s.mem.read s.pc
    · obtain ⟨i, hi⟩ := hrow
      exact .inr (hundef i hi)
    · exact .inl (not_exists.mp hrow)
  have hlen := implementedLength_of_opcode hop himpl
  obtain ⟨hpos, hle⟩ := mode_length_bounds i.operand.mode
  refine ⟨fun hlong h1 => ?second, fun hthree h1 h2 => ?third, fun hplain => ?pointer⟩
  case second =>
    exact step_of_fetch_error (fetchInstr_operand_intercepted hpc hlen (find?_operandAddrs_second hlong h1))
  case third =>
    refine step_of_fetch_error (fetchInstr_operand_intercepted hpc hlen ?_)
    rw [hthree]
    exact find?_operandAddrs_third h1 h2
  case pointer =>
    obtain ⟨j, hfetch, hbytes⟩ := fetchInstr_of_plain hlen hpos hplain
    have hopj : opcode j = opcode i := (List.cons.inj hbytes).1.trans hop.symm
    have hmode : j.operand.mode = .ind ↔ i.operand.mode = .ind := by
      rw [mode_ind_iff_opcode, mode_ind_iff_opcode, hopj]
    by_cases hind : i.operand.mode = .ind
    · obtain ⟨p, rfl⟩ := eq_jmpInd_of_mode (hmode.mpr hind)
      rw [hind] at hbytes
      rw [← pointer_of_encode hbytes]
      rcases jumpIndirect_cases p s with ⟨hp, hp1, hj⟩ | ⟨hbad, hj⟩
      · refine ⟨fun hbad => ?_, fun _ => ⟨_, step_of_exec_next hfetch hj⟩⟩
        simp [hp, hp1] at hbad
      · exact ⟨fun _ => step_of_exec_fault hfetch hj, fun hgood => absurd ⟨hind, hbad⟩ hgood⟩
    · obtain ⟨t, ht⟩ := exec_next_of_mode_ne_ind (mt hmode.mp hind) s
      exact ⟨fun hbad => absurd hbad.1 hind, fun _ => ⟨_, step_of_exec_next hfetch ht⟩⟩

/-- Settles O11: action by action, and by induction on the number of steps. -/
theorem hostActionsKeepInvariant : Obligations.HostActionsKeepInvariant :=
  ⟨fun act _ => hostAct_inv act, fun n _ => runSteps_inv n⟩

/-- Settles O17: a completed step is compared with its own count, which the next one has passed. -/
theorem breakpointAfterCountedInstruction : Obligations.BreakpointAfterCountedInstruction := by
  intro s t verbose h
  obtain ⟨hicount, hbreakpoint, -, -⟩ := hostStateUntouchedByInstructions.2 s t h
  refine ⟨fun hdue => ?_, fun hdue => ?_, hicount, hbreakpoint, fun u hpassed hu => ?_⟩
  · rw [stepApi_of_next verbose h, completed_of_step h, if_pos hdue]
  · rw [stepApi_of_next verbose h, completed_of_step h, if_neg hdue]
  · rw [stepApi_of_next verbose hu, completed_of_step hu, hpassed, if_neg (by simp)]

/-- Settles O34: I is carried through unread, overwritten, or pushed as a bit of the status byte. -/
theorem interruptDisableMasksNothing : Obligations.InterruptDisableMasksNothing := by
  refine fun s v => ⟨fetchInstr_congr rfl rfl fun _ _ => rfl,
    fun i => ⟨fun hn => ?carried, fun hm => ?overwritten, fun hm => ?pushed⟩⟩
  case carried => exact ⟨fun t => exec_withI hn v, fun f => exec_withI_fault v⟩
  case overwritten =>
    simp only [List.mem_cons, List.not_mem_nil, or_false] at hm
    obtain hm | hm | hm | hm := hm
    · cases only_SEI hm; rfl
    · cases only_CLI hm; rfl
    · cases only_PLP hm; rfl
    · cases only_RTI hm; rfl
  case pushed =>
    simp only [List.mem_cons, List.not_mem_nil, or_false] at hm
    obtain hm | hm := hm
    · cases only_PHP hm
      refine ⟨_, _, rfl, rfl, rfl, rfl, fun a ha => ?_⟩
      rw [stackAbove_eq_stackSlot (s := s) (k := 0) rfl, stackSlot_zero] at ha
      exact (push_read_of_ne _ ha).trans (push_read_of_ne (s := withI v s) _ ha).symm
    · obtain ⟨pad, rfl⟩ := only_BRK hm
      obtain ⟨hsame, hflags, hread⟩ := enterTrap_withI (s.pc + 2) v s
      refine ⟨_, _, rfl, rfl, hsame, hflags, fun a ha => hread a ?_⟩
      have hsp : (enterTrap (s.pc + 2) s).sp = s.sp - 3 := congrArg State.sp (enterTrap_eq (s.pc + 2) s)
      rwa [stackAbove_eq_stackSlot (s := s) (k := 2) hsp] at ha

/-- Settles O16: the key is one write to memory, which no ROM boundary guards; the other actions are updates of one field. -/
theorem keyInjectionWritesKeyboardByte : Obligations.KeyInjectionWritesKeyboardByte := by
  have hread (code : Byte) (s : State) (a : Addr) :
      (hostAct (.injectKey code) s).mem.read a = if a = 0xC000 then code ||| 0x80 else s.mem.read a :=
    memory_read_write _ _ _ _
  exact ⟨fun code s => ⟨rfl, hread code s⟩, fun s => hread 0x0D s 0xC000, fun _ => rfl, fun _ _ => rfl⟩

/-- Settles O18: a step that does not complete is a fault, and the host then keeps the state it had. -/
theorem stoppedStepLeavesState : Obligations.StoppedStepLeavesState := by
  intro s v w hcontinued hbreakpoint
  rcases step_next_or_fault s with ⟨t, ht⟩ | ⟨f, hf⟩
  · rw [stepApi_of_next v ht] at hcontinued hbreakpoint
    exact ((completed_cases t).elim hcontinued hbreakpoint).elim
  · rw [stepApi_of_fault v hf]
    exact ⟨rfl, stepApi_of_fault w hf, outcome_ne_refused f⟩

end Sys2Proof.Machine
end

section
/-! PROOFS. The statements of 70_reset_and_hazards.md: the state that construction gives, and the reset after it. -/

namespace Sys2Proof.Machine

variable {cfg : Config} {image : List Byte}

/-! ## What construction accepts (R7, R270) -/

/-- Only the check on the length looks at the image, so an accepted configuration is legal by itself. -/
theorem configOk_of_accepted {n : Nat} (h : configProblem cfg n = none) : configOk cfg = true := by
  refine Option.isNone_iff_eq_none.mpr (not_not.mp fun hempty => ?_)
  have hproblem := (configProblem_ne_none_iff cfg 0).mp hempty
  exact (configProblem_ne_none_iff cfg n).mpr (hproblem.imp_left fun hlong => absurd hlong (Nat.not_lt_zero _)) h

theorem length_le_of_accepted {n : Nat} (h : configProblem cfg n = none) : n ≤ memSize :=
  Nat.le_of_not_lt fun hlong => (configProblem_ne_none_iff cfg n).mpr (.inl hlong) h

/-- What construction builds meets the invariant. -/
theorem built_inv (bp : Option Nat) (h : configProblem cfg image.length = none) : (built image cfg bp).Inv :=
  ⟨memory_wf_load image (length_le_of_accepted h), configOk_of_accepted h⟩

/-- `PC` after construction is the reset vector as the image has it (R271). -/
theorem built_pc (image : List Byte) (cfg : Config) (bp : Option Nat) :
    (built image cfg bp).pc = pair (image.getD 0xFFFD 0) (image.getD 0xFFFC 0) := by
  have hvector : (built image cfg bp).pc = pair ((built image cfg bp).mem.read 0xFFFD) ((built image cfg bp).mem.read 0xFFFC) :=
    rfl
  rw [hvector, built, memory_read_load, memory_read_load]
  rfl

/-! ## The statements -/

/-- Settles O12: field by field of the state built; an image that ends before the vector leaves both its bytes 0. -/
theorem constructionGivesInitialState : Obligations.ConstructionGivesInitialState := by
  intro image cfg bp h
  refine ⟨built image cfg bp, construct_ok_iff.mpr ⟨h, rfl⟩, built_inv bp h, ⟨rfl, rfl, rfl, rfl, rfl, rfl⟩, rfl, rfl,
    memory_read_load image, built_pc image cfg bp, fun hshort => ?_⟩
  rw [built_pc, List.getD_eq_default _ _ (Nat.le_succ_of_le hshort), List.getD_eq_default _ _ hshort]
  rfl

/-- Settles O9: the state after reset is one that construction builds. -/
theorem resetMeetsInvariant : Obligations.ResetMeetsInvariant := by
  obtain ⟨haccepted, hbuilt⟩ := construct_ok_iff.mp resetStateIsConstructed.1
  have hinv := built_inv none haccepted
  rwa [← hbuilt] at hinv

/-- Settles O15: each field by the definition of the reset. -/
theorem registerResetKeepsMemory : Obligations.RegisterResetKeepsMemory :=
  fun _ => ⟨⟨rfl, rfl, rfl, rfl, rfl⟩, rfl, rfl, rfl, rfl, rfl⟩

end Sys2Proof.Machine
end
